-- ==== Sys2Proof/Word.lean ====
section
/-! DEFINITION. The word types of resid-FCB (00_scope.md R7, R11, R12): every field has the width the spec states. -/

namespace Sys2Proof

/-- One command word, 32 bits, bit 0 the least significant (R11, R90, R91). -/
abbrev Word := BitVec 32

/-- The byte `imm8` of a register write (R92, format B). -/
abbrev Byte := BitVec 8

/-- A cutoff code: 11 bits unsigned (R7 `FC_BITS`, R20, R36). -/
abbrev Code := BitVec 11

/-- A calibration frequency in Hz: 16 bits unsigned (R7 `FREQ_BITS`, R36). -/
abbrev Freq := BitVec 16

/-- A resonance code: 4 bits unsigned (R7 `RES_BITS`, R20). -/
abbrev ResCode := BitVec 4

/-- A lookup entry and `w0`: 32 bits, signed two's complement, read with `BitVec.toInt` (R7 `W0_BITS`, R39, R41). -/
abbrev Entry := BitVec 32

/-- The Q-term: 11 bits unsigned (R7 `Q_BITS`, R43). -/
abbrev QTerm := BitVec 11

/-- The DC-offset constant: 32 bits, signed two's complement, read with `BitVec.toInt` (R7 `DC_BITS`, R28). -/
abbrev DcOffset := BitVec 32

end Sys2Proof
end

