-- ==== Sys2Proof/Config.lean ====
section
/-! DEFINITION. The parameters of the block (00_scope.md R7, R8, R17): the fixed numbers, the shape of a calibration
table, and the OPEN parameters, which have no body: nothing in Lean can say a value of them. -/

namespace Sys2Proof

/-- A calibration point `(code, freq)`, D0's `CalibrationPoint` (R16, R36). -/
structure Point where
  code : Code
  freq : Freq
deriving DecidableEq, Repr

/-- A calibration table: its points in table order (R34 to R38). -/
abbrev Table := List Point

/-- The two chip variants (R17: A = 0, B = 1). -/
inductive Variant where
  | A
  | B
deriving DecidableEq, Repr

/-- The OPEN parameters of one instance of the block (R7, R34, R35, R28), read-only contents no command writes. -/
structure Params where
  /-- `CAL_A` (R34). -/
  calA : Table
  /-- `CAL_B` (R35). -/
  calB : Table
  /-- `DC_A` (R28, R7). -/
  dcA : DcOffset
deriving DecidableEq, Repr

namespace Config

/-- `N_CODES` (R7): entries of the dense lookup. -/
abbrev nCodes : ℕ := 2048

/-- `NPTS_MAX` (R7): most points a calibration table holds. -/
abbrev nptsMax : ℕ := 29

/-- `NPTS_MIN` (R7): fewest points of a valid table. -/
abbrev nptsMin : ℕ := 2

/-- `SCALE` = π · `scaleOverPi` (R8: 2 · 1.048576 = 32768/15625 exactly). -/
def scaleOverPi : ℚ := 32768 / 15625

/-- `DC_B` = 0 (R7, R28). -/
def dcB : DcOffset := 0

/-- `CAL_A` of this instance: OPEN (R7, R34; U6), a free value. See notes/assumptions/1.md. -/
opaque calA : Table

/-- `CAL_B` of this instance: OPEN (R7, R35; U6), a free value. See notes/assumptions/1.md. -/
opaque calB : Table

/-- `DC_A` of this instance: OPEN (R7, R28; U6), a free value. See notes/assumptions/1.md. -/
opaque dcA : DcOffset

/-- The bit drawn for `enabled` at power-on: any value (R54, R231; U2), a free value. See notes/assumptions/2.md. -/
opaque enabledAtPowerOn : Bool

/-- The OPEN parameters together. -/
def params : Params := { calA := calA, calB := calB, dcA := dcA }

end Config

end Sys2Proof
end

