-- ==== Sys2Proof/Syntax.lean ====
section
/-! DEFINITION. The ten commands (30_encoding.md R92, R93; spec/opcode_table.json), and the assembler's lines (R104,
R105), whose numbers are not yet bound to a field's width. -/

namespace Sys2Proof

/-- A command with its operand fields; ignored bits (R101) are not part of it. -/
inductive Instr where
  /-- `WR_FCLO imm8` (R171). -/
  | wrFclo (imm8 : Byte)
  /-- `WR_FCHI imm8` (R172). -/
  | wrFchi (imm8 : Byte)
  /-- `WR_RESFILT imm8` (R173). -/
  | wrResfilt (imm8 : Byte)
  /-- `WR_MODEVOL imm8` (R174). -/
  | wrModevol (imm8 : Byte)
  /-- `RESET` (R175). -/
  | reset
  /-- `SET_ENABLE b` (R176). -/
  | setEnable (b : Bool)
  /-- `SEL_VARIANT A` or `SEL_VARIANT B` (R150). -/
  | selVariant (v : Variant)
  /-- `CAL_BEGIN` (R152). -/
  | calBegin
  /-- `CAL_POINT code, freq` (R153). -/
  | calPoint (code : Code) (freq : Freq)
  /-- `CAL_COMMIT` (R156). -/
  | calCommit
deriving DecidableEq, Repr

/-- One line of assembler text (R104), the two pseudo-instructions of R105 among them, with numbers as written. -/
inductive AsmLine where
  | wrFclo (imm8 : ℕ)
  | wrFchi (imm8 : ℕ)
  | wrResfilt (imm8 : ℕ)
  | wrModevol (imm8 : ℕ)
  | reset
  | setEnable (b : ℕ)
  | selVariant (v : Variant)
  | calBegin
  | calPoint (code freq : ℕ)
  | calCommit
  /-- `SET_FC c` (R105). -/
  | setFc (c : ℕ)
  /-- `LOAD_CAL (c0,f0) (c1,f1) … (cn,fn)` (R105). -/
  | loadCal (points : List (ℕ × ℕ))
deriving DecidableEq, Repr

/-- Disassembly of a command: the mnemonic and the operand fields (R106). -/
def Instr.disassemble : Instr → AsmLine
  | .wrFclo imm8 => .wrFclo imm8.toNat
  | .wrFchi imm8 => .wrFchi imm8.toNat
  | .wrResfilt imm8 => .wrResfilt imm8.toNat
  | .wrModevol imm8 => .wrModevol imm8.toNat
  | .reset => .reset
  | .setEnable b => .setEnable b.toNat
  | .selVariant v => .selVariant v
  | .calBegin => .calBegin
  | .calPoint code freq => .calPoint code.toNat freq.toNat
  | .calCommit => .calCommit

end Sys2Proof
end

