-- ==== Sys2Proof/WellFormed.lean ====
section
/-! DEFINITION. Well-formedness: the ranges R104 gives the assembler's numbers ("`imm8` is 0..255, `code` 0..2047,
`freq` 0..65535; the assembler rejects a value outside its range"; `b` is 0 or 1; R105: `c` in 0..2047). -/

namespace Sys2Proof

/-- Every number of the line lies in its range (R104, R105). `LOAD_CAL` has at least the point `(c0,f0)` (R105). -/
def AsmLine.wellFormed : AsmLine → Bool
  | .wrFclo imm8 => decide (imm8 < 256)
  | .wrFchi imm8 => decide (imm8 < 256)
  | .wrResfilt imm8 => decide (imm8 < 256)
  | .wrModevol imm8 => decide (imm8 < 256)
  | .reset => true
  | .setEnable b => decide (b < 2)
  | .selVariant _ => true
  | .calBegin => true
  | .calPoint code freq => decide (code < 2048) && decide (freq < 65536)
  | .calCommit => true
  | .setFc c => decide (c < 2048)
  | .loadCal points => !points.isEmpty && points.all fun p => decide (p.1 < 2048) && decide (p.2 < 65536)

/-- A command is well-formed when its written form is (R104). The operand fields have the widths of R92, so every
command is: `Sys2Proof.Laws.Instr.wellFormed_all`. -/
def Instr.wellFormed (i : Instr) : Bool := i.disassemble.wellFormed

end Sys2Proof
end

