-- ==== Sys2Proof/Decode.lean ====
section
/-! DEFINITION. The decoder and the encoder of the command word (30_encoding.md R91 to R104). The decoder is total:
every 32-bit word is exactly one of the ten commands or illegal (R103). -/

namespace Sys2Proof

/-- Why a word is no command: `op` in 10..15 (R102, R206). -/
inductive DecodeError where
  | illegalCommand
deriving DecidableEq, Repr

/-- `op` = `w[31:28]` (R91). -/
def opField (w : Word) : BitVec 4 := w.extractLsb' 28 4

/-- `imm8` = `w[7:0]` (R92, format B). -/
def imm8Field (w : Word) : Byte := w.extractLsb' 0 8

/-- `b` = `w[0]` (R92, format F). -/
def flagField (w : Word) : Bool := w.getLsbD 0

/-- `code` = `w[26:16]` (R92, format P; R100). -/
def codeField (w : Word) : Code := w.extractLsb' 16 11

/-- `freq` = `w[15:0]` (R92, format P; R100). -/
def freqField (w : Word) : Freq := w.extractLsb' 0 16

/-- The variant a format-F bit selects (R17, R99). -/
def variantOfBit (b : Bool) : Variant := if b then .B else .A

/-- The bit that encodes a variant (R17). -/
def bitOfVariant : Variant → Bool
  | .A => false
  | .B => true

/-- The opcode map (R93); `op` 10..15 is illegal (R102). -/
def decode (w : Word) : Except DecodeError Instr :=
  match (opField w).toNat with
  | 0 => .ok (.wrFclo (imm8Field w))
  | 1 => .ok (.wrFchi (imm8Field w))
  | 2 => .ok (.wrResfilt (imm8Field w))
  | 3 => .ok (.wrModevol (imm8Field w))
  | 4 => .ok .reset
  | 5 => .ok (.setEnable (flagField w))
  | 6 => .ok (.selVariant (variantOfBit (flagField w)))
  | 7 => .ok .calBegin
  | 8 => .ok (.calPoint (codeField w) (freqField w))
  | 9 => .ok .calCommit
  | _ => .error .illegalCommand

/-- The canonical word of a command (R104): every ignored bit is zero. -/
def encode : Instr → Word
  | .wrFclo imm8 => 0x00000000#32 ||| imm8.setWidth 32
  | .wrFchi imm8 => 0x10000000#32 ||| imm8.setWidth 32
  | .wrResfilt imm8 => 0x20000000#32 ||| imm8.setWidth 32
  | .wrModevol imm8 => 0x30000000#32 ||| imm8.setWidth 32
  | .reset => 0x40000000#32
  | .setEnable b => 0x50000000#32 ||| (BitVec.ofBool b).setWidth 32
  | .selVariant v => 0x60000000#32 ||| (BitVec.ofBool (bitOfVariant v)).setWidth 32
  | .calBegin => 0x70000000#32
  | .calPoint code freq => 0x80000000#32 ||| (code.setWidth 32 <<< 16) ||| freq.setWidth 32
  | .calCommit => 0x90000000#32

/-- The bits of a word of this command that are not ignored: `op` and the operand fields of its format (R92, R101). -/
def usedBits : Instr → Word
  | .wrFclo _ => 0xF00000FF#32
  | .wrFchi _ => 0xF00000FF#32
  | .wrResfilt _ => 0xF00000FF#32
  | .wrModevol _ => 0xF00000FF#32
  | .reset => 0xF0000000#32
  | .setEnable _ => 0xF0000001#32
  | .selVariant _ => 0xF0000001#32
  | .calBegin => 0xF0000000#32
  | .calPoint _ _ => 0xF7FFFFFF#32
  | .calCommit => 0xF0000000#32

/-- The instruction the decoder reads from the low `nbits` bits of `w`, bit 0 the word's least significant (R11); bits
above `nbits` are zero. -/
def decodeTableWord (nbits w : ℕ) : Option Instr :=
  match decode (BitVec.ofNat 32 (w % 2 ^ nbits)) with
  | .ok i => some i
  | .error _ => none

end Sys2Proof
end

