-- ==== Sys2Proof/Machine/State.lean ====
section
/-! DEFINITION. The state of the block as plain data (10_state.md), what it outputs, and its value at power-on (R54).
A field that R54 gives "no value" is an `Option`, as R42, D20 and 93_implementation_defined.md U1 ask; see
notes/assumptions/3.md. -/

namespace Sys2Proof.Machine

/-- The error causes (60_exceptions.md R200). -/
inductive Cause where
  /-- 1: the table has fewer than 2 points (R201). -/
  | tooFewPoints
  /-- 2: first code ≠ 0 or last code ≠ 2047 (R203). -/
  | domainNotCovered
  /-- 3: some code is smaller than the code before it (R202). -/
  | unsorted
  /-- 4: a 30th point was offered since the last CAL_BEGIN (R204). -/
  | stagingOverflow
  /-- 5: some lookup entry does not fit 32 bits signed (R205). -/
  | entryOutOfRange
  /-- 15: `op` in 10..15 (R206). -/
  | illegalCommand
deriving DecidableEq, Repr

/-- What a command answers on the response port (R200). -/
inductive Response where
  | ok
  | error (c : Cause)
deriving DecidableEq, Repr

/-- What the block sends out while commands run, in order: the event `state_clear` (R46) and the responses (R45). -/
inductive OutEvent where
  | stateClear
  | response (r : Response)
deriving DecidableEq, Repr

/-- The dense lookup: 2048 entries of 32 bits signed (R39). -/
abbrev Lookup := Vector Entry 2048

/-- D0's "FilterRegisters": the six fields of the register file (R20). -/
structure FilterRegisters where
  /-- Cutoff code (R22). -/
  fc : Code
  /-- Resonance code. -/
  res : ResCode
  /-- Routing flags: bits 2:0 voices, bit 3 external input (R23). -/
  filt : BitVec 4
  /-- Voice-3-disconnect flag. -/
  v3off : Bool
  /-- Output-mode flags: bit 2 high-pass, bit 1 band-pass, bit 0 low-pass (R24). -/
  mode : BitVec 3
  /-- Output volume. -/
  vol : BitVec 4
deriving DecidableEq, Repr

/-- The all-zero register file (R21, R231). -/
def FilterRegisters.zero : FilterRegisters :=
  { fc := 0, res := 0, filt := 0, v3off := false, mode := 0, vol := 0 }

/-- The state of one instance of the block (R18), and the host's side of its command port. -/
structure State where
  /-- The register file (R20). -/
  regs : FilterRegisters
  /-- The filter-enabled flag (R26). -/
  enabled : Bool
  /-- The variant last selected, if any (R27). -/
  variant : Option Variant
  /-- `var_valid` (R27). -/
  varValid : Bool
  /-- The DC-offset constant of the selected variant, if any (R28). -/
  dc : Option DcOffset
  /-- `tbl_valid` (R29). -/
  tblValid : Bool
  /-- `CAL`, the active table, if any; `cal_n` is its length (R37). -/
  cal : Option Table
  /-- `LOOKUP`, if any (R39). -/
  lookup : Option Lookup
  /-- The filled slots of `STG` in order; `stg_cnt` is their number (R30, R38; U7). -/
  stg : Table
  /-- `stg_ovf` (R30, R154). -/
  stgOvf : Bool
  /-- The derived coefficient `w0`, if it has a value (R41, R42). -/
  w0 : Option Entry
  /-- The derived coefficient `q1024` (R43). -/
  q1024 : QTerm
  /-- The read-only contents this instance was given (R34, R35, R28). -/
  params : Params
  /-- The command words the host has yet to present, the next one first (R10, R90). -/
  cmds : List Word
  /-- The output trace, oldest first (R45, R46, R200). -/
  trace : List OutEvent
deriving DecidableEq, Repr

/-- Why a use of the block stops. NO COMMAND AND NO STEP RAISES ONE: the spec has a response, not a stop, for every
command (R200, R212). Both are the external loop's own faults, for reading an output that has no value (U1), raised by
`State.readW0` and `State.readDc` alone, and safe: no number stands in for the missing value. -/
inductive Fault where
  /-- `o_w0` was read while `o_w0_valid` = 0 (U1, R234). Raised by `State.readW0`; safe. -/
  | w0HasNoValue
  /-- `o_dc` was read while `o_dc_valid` = 0 (U1, R234). Raised by `State.readDc`; safe. -/
  | dcHasNoValue
deriving DecidableEq, Repr

/-- Why an instruction has no meaning in this model. -/
inductive Refusal where
  /-- Raised by `exec` for an instruction that is not modelled; no arm of `exec` raises it. Safe: the model stops. -/
  | notModelled (mnemonic : String)
deriving DecidableEq, Repr

/-- What a step answers. -/
abbrev Result := Host.Outcome State Fault Refusal

/-- The state after the hardware reset input of an instance with the contents `params`, when `enabled` is drawn as
`enabledDraw` (R54, R231; U2). -/
def State.powerOn (params : Params) (enabledDraw : Bool) : State :=
  { regs := FilterRegisters.zero
    enabled := enabledDraw
    variant := none
    varValid := false
    dc := none
    tblValid := false
    cal := none
    lookup := none
    stg := []
    stgOvf := false
    w0 := none
    q1024 := 1448
    params := params
    cmds := []
    trace := [.stateClear] }

/-- Power-on of this instance: its OPEN parameters and its draw of `enabled` are free values of `Config`. -/
def State.reset : State := State.powerOn Config.params Config.enabledAtPowerOn

/-- `stg_cnt` (R30). -/
def State.stgCnt (s : State) : ℕ := s.stg.length

/-- `cal_n`, where the active table exists (R37). -/
def State.calN (s : State) : Option ℕ := s.cal.map List.length

end Sys2Proof.Machine
end

