-- ==== Sys2Proof/Machine/CoefficientDeriver.lean ====
section
/-! DEFINITION. The coefficient deriver (43_coefficient_deriver.md): `DeriveW0`, `DeriveQ` and `QROM`. -/

namespace Sys2Proof.Machine

/-- `QROM` (R40, R193): entry `r` is the Q-term of resonance code `r`. -/
def qrom : Vector QTerm 16 :=
  #v[1448, 1324, 1219, 1129, 1052, 984, 925, 872, 826, 783, 745, 711, 679, 651, 624, 600]

/-- `MemRead(QROM:r, 1)` (R61, R62: a 4-bit index is never out of range). -/
def qromRead (r : ResCode) : QTerm := qrom[r.toNat]'r.isLt

/-- `MemRead(LOOKUP:c, 1)` (R61, R62: an 11-bit index is never out of range). -/
def lookupRead (L : Lookup) (c : Code) : Entry := L[c.toNat]'c.isLt

/-- `DeriveW0()` (R190): no value while `tbl_valid` = 0. -/
def State.deriveW0 (s : State) : Option Entry :=
  if s.tblValid then s.lookup.map fun L => lookupRead L s.regs.fc else none

/-- `DeriveQ()` (R192). -/
def State.deriveQ (s : State) : QTerm := qromRead s.regs.res

end Sys2Proof.Machine
end

