-- ==== Sys2Proof/Machine/Flags.lean ====
section
/-! DEFINITION. The status bits (10_state.md R27, R29, R30, R31): `var_valid`, `tbl_valid`, `stg_ovf` and the derived
`w0_valid`. There are no condition codes (R31). -/

namespace Sys2Proof.Machine

/-- `var_valid` ← 1, with the selection that gives `variant` and `dc` their values (R27, R150). -/
def State.markVariant (s : State) (v : Variant) (dc : DcOffset) : State :=
  { s with variant := some v, dc := some dc, varValid := true }

/-- `tbl_valid` ← 1, with the table that gives `CAL` and `LOOKUP` their values (R29, R69: replaced whole). -/
def State.installTable (s : State) (T : Table) (L : Lookup) : State :=
  { s with cal := some T, lookup := some L, tblValid := true }

/-- `stg_ovf` ← 1 (R154). -/
def State.setOverflow (s : State) : State := { s with stgOvf := true }

/-- `w0_valid` = `tbl_valid` (R42). -/
def State.w0Valid (s : State) : Bool := s.tblValid

end Sys2Proof.Machine
end

