-- ==== Sys2Proof/Machine/Operands.lean ====
section
/-! DEFINITION. Operand assembly: what the bits of `imm8` become (30_encoding.md R94 to R98; the masks and shifts of
42_filter_register_file.md R171 to R174). -/

namespace Sys2Proof.Machine

/-- WR_FCLO: `fc[10:3]` kept, `fc[2:0]` ← `imm8[2:0]` (R95, R171: `(fc & 0x7F8) | (imm8 & 0x07)`). -/
def fcWithLow (fc : Code) (imm8 : Byte) : Code := (fc &&& 0x7F8#11) ||| (imm8.setWidth 11 &&& 0x007#11)

/-- WR_FCHI: `fc[10:3]` ← `imm8[7:0]`, `fc[2:0]` kept (R96, R172: `((imm8 << 3) & 0x7F8) | (fc & 0x007)`). -/
def fcWithHigh (fc : Code) (imm8 : Byte) : Code := ((imm8.setWidth 11 <<< 3) &&& 0x7F8#11) ||| (fc &&& 0x007#11)

/-- WR_RESFILT: the new `res` is `imm8[7:4]` (R97). -/
def resOfByte (imm8 : Byte) : ResCode := imm8.extractLsb' 4 4

/-- WR_RESFILT: the new `filt` is `imm8[3:0]` (R97). -/
def filtOfByte (imm8 : Byte) : BitVec 4 := imm8.extractLsb' 0 4

/-- WR_MODEVOL: the new `v3off` is `imm8[7]` (R98). -/
def v3offOfByte (imm8 : Byte) : Bool := imm8.getLsbD 7

/-- WR_MODEVOL: the new `mode` is `imm8[6:4]` (R98). -/
def modeOfByte (imm8 : Byte) : BitVec 3 := imm8.extractLsb' 4 3

/-- WR_MODEVOL: the new `vol` is `imm8[3:0]` (R98). -/
def volOfByte (imm8 : Byte) : BitVec 4 := imm8.extractLsb' 0 4

/-- The calibration table SEL_VARIANT builds from (R150). -/
def tableOf (p : Params) : Variant → Table
  | .A => p.calA
  | .B => p.calB

/-- The DC-offset constant of a variant (R28, R150). -/
def dcOf (p : Params) : Variant → DcOffset
  | .A => p.dcA
  | .B => Config.dcB

end Sys2Proof.Machine
end

