-- ==== Sys2Proof/Machine/Pi.lean ====
section
/-! DEFINITION. Rational enclosures of π for the quantiser (40_spline_interpolator.md R134, R135): the 60-decimal
one R135 gives, and arbitrarily tight ones from Machin's formula, for the case R135 names ("if an enclosure is too
wide to decide some entry, a tighter one must be used; the value is never guessed"). The theorems here are what the
definition of `quant` needs to be total: some enclosure of the sequence decides every positive rational. -/

namespace Sys2Proof.Machine

/-- π truncated after the 60th decimal (R135). -/
def pi60Lo : ℚ := 3141592653589793238462643383279502884197169399375105820974944 / 10 ^ 60

/-- `pi60Lo` plus 10^−60 (R135). -/
def pi60Hi : ℚ := 3141592653589793238462643383279502884197169399375105820974945 / 10 ^ 60

/-- The first `n` terms of the series of arctan(1/k). -/
def arctanInvSum (k n : ℕ) : ℚ :=
  ∑ i ∈ Finset.range n, (-1) ^ i * (1 / ((2 * i + 1) * k ^ (2 * i + 1)))

/-- Lower bound number `n` of π, by π/4 = 4·arctan(1/5) − arctan(1/239). -/
def piLo (n : ℕ) : ℚ := 4 * (4 * arctanInvSum 5 (2 * n) - arctanInvSum 239 (2 * n + 1))

/-- Upper bound number `n` of π. -/
def piHi (n : ℕ) : ℚ := 4 * (4 * arctanInvSum 5 (2 * n + 1) - arctanInvSum 239 (2 * n))

/-- The product `SCALE`·s with `p` in the place of π. -/
def scaled (p s : ℚ) : ℚ := s * Config.scaleOverPi * p

/-- R135's test for s = p/q > 0 in lowest terms, with A = 32768·p and B = 15625·q: the integer `n` with
(n − 1/2)·B < A·`lo` and A·`hi` < (n + 1/2)·B, if this enclosure of π decides it. Both inequalities are multiplied out
to integers. -/
def roundWithin (lo hi s : ℚ) : Option ℤ :=
  let A : ℤ := 32768 * s.num
  let B : ℤ := 15625 * s.den
  let n : ℤ := (2 * A * lo.num + B * lo.den) / (2 * B * lo.den)
  if (2 * n - 1) * B * lo.den < 2 * A * lo.num ∧ 2 * A * hi.num < (2 * n + 1) * B * hi.den then some n else none

/-- `roundWithin` in rational arithmetic. -/
theorem roundWithin_eq (lo hi s : ℚ) :
    roundWithin lo hi s =
      if ((⌊scaled lo s + 1 / 2⌋ : ℤ) : ℚ) - 1 / 2 < scaled lo s ∧
          scaled hi s < ((⌊scaled lo s + 1 / 2⌋ : ℤ) : ℚ) + 1 / 2 then
        some ⌊scaled lo s + 1 / 2⌋ else none := by
  have scaled_frac : ∀ p : ℚ, scaled p s =
      (32768 * (s.num : ℚ)) * p.num / ((15625 * (s.den : ℚ)) * p.den) := by
    intro p
    have hs : s * (s.den : ℚ) = s.num := Rat.mul_den_eq_num s
    have hp : p * (p.den : ℚ) = p.num := Rat.mul_den_eq_num p
    have ds : (s.den : ℚ) ≠ 0 := by exact_mod_cast s.den_nz
    have dp : (p.den : ℚ) ≠ 0 := by exact_mod_cast p.den_nz
    rw [← hs, ← hp, scaled, Config.scaleOverPi]; field_simp
  have dpos : ∀ p : ℚ, (0 : ℚ) < (15625 * (s.den : ℚ)) * p.den := fun p => by
    have h1 : (0 : ℚ) < s.den := by exact_mod_cast s.den_pos
    have h2 : (0 : ℚ) < p.den := by exact_mod_cast p.den_pos
    positivity
  have hn : ⌊scaled lo s + 1 / 2⌋ =
      (2 * (32768 * s.num) * lo.num + 15625 * s.den * lo.den) / (2 * (15625 * s.den) * lo.den) := by
    have hfrac : scaled lo s + 1 / 2 =
        ((2 * (32768 * s.num) * lo.num + 15625 * s.den * lo.den : ℤ) : ℚ) /
          ((2 * (15625 * s.den) * lo.den : ℕ) : ℚ) := by
      have := (dpos lo).ne'
      rw [scaled_frac]; push_cast; field_simp
    rw [hfrac, Rat.floor_intCast_div_natCast]; push_cast; rfl
  rw [hn]
  set n : ℤ := (2 * (32768 * s.num) * lo.num + 15625 * s.den * lo.den) / (2 * (15625 * s.den) * lo.den) with hndef
  have h1 : ((n : ℚ) - 1 / 2 < scaled lo s) ↔
      (2 * n - 1) * (15625 * s.den) * lo.den < 2 * (32768 * s.num) * lo.num := by
    rw [scaled_frac, lt_div_iff₀ (dpos lo), ← Int.cast_lt (R := ℚ)]; push_cast
    constructor <;> intro h <;> linarith
  have h2 : (scaled hi s < (n : ℚ) + 1 / 2) ↔
      2 * (32768 * s.num) * hi.num < (2 * n + 1) * (15625 * s.den) * hi.den := by
    rw [scaled_frac, div_lt_iff₀ (dpos hi), ← Int.cast_lt (R := ℚ)]; push_cast
    constructor <;> intro h <;> linarith
  simp only [roundWithin, h1, h2, ← hndef]

section Enclosure

open Filter Topology

theorem arctanInvSum_tendsto (k : ℕ) (hk : 2 ≤ k) :
    Tendsto (fun n => ((arctanInvSum k n : ℚ) : ℝ)) atTop (𝓝 (Real.arctan ((k : ℝ)⁻¹))) := by
  have hk' : (2 : ℝ) ≤ k := by exact_mod_cast hk
  have hx : ‖(k : ℝ)⁻¹‖ < 1 := by
    rw [Real.norm_eq_abs, abs_of_nonneg (by positivity)]
    exact inv_lt_one_of_one_lt₀ (by linarith)
  refine ((Real.hasSum_arctan hx).tendsto_sum_nat).congr fun n => ?_
  simp only [arctanInvSum]
  push_cast
  refine Finset.sum_congr rfl fun i _ => ?_
  rw [inv_pow]
  field_simp

theorem arctanInvSum_bounds (k : ℕ) (hk : 2 ≤ k) (n : ℕ) :
    ((arctanInvSum k (2 * n) : ℚ) : ℝ) ≤ Real.arctan ((k : ℝ)⁻¹) ∧
      Real.arctan ((k : ℝ)⁻¹) ≤ ((arctanInvSum k (2 * n + 1) : ℚ) : ℝ) := by
  have hk' : (2 : ℝ) ≤ k := by exact_mod_cast hk
  have cast_sum : ∀ m, ((arctanInvSum k m : ℚ) : ℝ) =
      ∑ i ∈ Finset.range m, (-1 : ℝ) ^ i * (1 / ((2 * i + 1) * (k : ℝ) ^ (2 * i + 1))) := by
    intro m; simp only [arctanInvSum]; push_cast; rfl
  have hlim : Tendsto (fun m => ∑ i ∈ Finset.range m,
      (-1 : ℝ) ^ i * (1 / ((2 * i + 1) * (k : ℝ) ^ (2 * i + 1)))) atTop
      (𝓝 (Real.arctan ((k : ℝ)⁻¹))) :=
    (arctanInvSum_tendsto k hk).congr cast_sum
  have hanti : Antitone fun i : ℕ => 1 / ((2 * (i : ℝ) + 1) * (k : ℝ) ^ (2 * i + 1)) := by
    intro i j hij
    have hij' : (i : ℝ) ≤ j := by exact_mod_cast hij
    refine one_div_le_one_div_of_le (by positivity) ?_
    refine mul_le_mul (by linarith) (pow_le_pow_right₀ (by linarith) (by omega)) (by positivity)
      (by positivity)
  rw [cast_sum, cast_sum]
  exact ⟨hanti.alternating_series_le_tendsto hlim n, hanti.tendsto_le_alternating_series hlim n⟩

theorem pi_eq_machin :
    Real.pi = 4 * (4 * Real.arctan (((5 : ℕ) : ℝ)⁻¹) - Real.arctan (((239 : ℕ) : ℝ)⁻¹)) := by
  have := Real.four_mul_arctan_inv_5_sub_arctan_inv_239
  push_cast; linarith

theorem piLo_le_pi (n : ℕ) : ((piLo n : ℚ) : ℝ) ≤ Real.pi := by
  have h5 := (arctanInvSum_bounds 5 (by norm_num) n).1
  have h239 := (arctanInvSum_bounds 239 (by norm_num) n).2
  rw [pi_eq_machin]; simp only [piLo]; push_cast at *; linarith

theorem pi_le_piHi (n : ℕ) : Real.pi ≤ ((piHi n : ℚ) : ℝ) := by
  have h5 := (arctanInvSum_bounds 5 (by norm_num) n).2
  have h239 := (arctanInvSum_bounds 239 (by norm_num) n).1
  rw [pi_eq_machin]; simp only [piHi]; push_cast at *; linarith

theorem even_tendsto_atTop : Tendsto (fun n : ℕ => 2 * n) atTop atTop :=
  tendsto_atTop_mono (fun n => show n ≤ 2 * n by omega) tendsto_id

theorem odd_tendsto_atTop : Tendsto (fun n : ℕ => 2 * n + 1) atTop atTop :=
  tendsto_atTop_mono (fun n => show n ≤ 2 * n + 1 by omega) tendsto_id

theorem piLo_tendsto : Tendsto (fun n => ((piLo n : ℚ) : ℝ)) atTop (𝓝 Real.pi) := by
  have h5 := (arctanInvSum_tendsto 5 (by norm_num)).comp even_tendsto_atTop
  have h239 := (arctanInvSum_tendsto 239 (by norm_num)).comp odd_tendsto_atTop
  rw [pi_eq_machin]
  refine (((h5.const_mul 4).sub h239).const_mul 4).congr fun n => ?_
  simp only [piLo, Function.comp]; push_cast; rfl

theorem piHi_tendsto : Tendsto (fun n => ((piHi n : ℚ) : ℝ)) atTop (𝓝 Real.pi) := by
  have h5 := (arctanInvSum_tendsto 5 (by norm_num)).comp odd_tendsto_atTop
  have h239 := (arctanInvSum_tendsto 239 (by norm_num)).comp even_tendsto_atTop
  rw [pi_eq_machin]
  refine (((h5.const_mul 4).sub h239).const_mul 4).congr fun n => ?_
  simp only [piHi, Function.comp]; push_cast; rfl

theorem scaled_cast (p s : ℚ) : ((scaled p s : ℚ) : ℝ) = ((s * Config.scaleOverPi : ℚ) : ℝ) * (p : ℝ) := by
  simp only [scaled]; push_cast; ring

/-- Some enclosure of the sequence decides every positive rational, because `SCALE`·s is irrational (R134). -/
theorem exists_enclosure_deciding (s : ℚ) (hs : 0 < s) :
    ∃ n, (roundWithin (piLo n) (piHi n) s).isSome = true := by
  have hk : (0 : ℚ) < s * Config.scaleOverPi := by
    have : (0 : ℚ) < Config.scaleOverPi := by norm_num [Config.scaleOverPi]
    positivity
  set k : ℚ := s * Config.scaleOverPi with hkdef
  have hkR : (0 : ℝ) < (k : ℝ) := by exact_mod_cast hk
  set X : ℝ := (k : ℝ) * Real.pi with hX
  have hirr : Irrational X := irrational_pi.ratCast_mul hk.ne'
  set m : ℤ := ⌊X + 1 / 2⌋ with hm
  have hlow : (m : ℝ) - 1 / 2 < X := by
    have h1 : (m : ℝ) ≤ X + 1 / 2 := Int.floor_le _
    have h2 : (m : ℝ) - 1 / 2 ≠ X := by
      have := hirr.ne_rational (2 * m - 1) 2
      intro h; apply this; rw [← h]; push_cast; ring
    exact lt_of_le_of_ne (by linarith) h2
  have hhigh : X < (m : ℝ) + 1 / 2 := by
    have := Int.lt_floor_add_one (X + 1 / 2); linarith
  have hlo : ∀ᶠ n in atTop, (m : ℝ) - 1 / 2 < (k : ℝ) * ((piLo n : ℚ) : ℝ) :=
    (piLo_tendsto.const_mul (k : ℝ)).eventually_const_lt hlow
  have hhi : ∀ᶠ n in atTop, (k : ℝ) * ((piHi n : ℚ) : ℝ) < (m : ℝ) + 1 / 2 :=
    (piHi_tendsto.const_mul (k : ℝ)).eventually_lt_const hhigh
  obtain ⟨n, h1, h2⟩ := (hlo.and hhi).exists
  refine ⟨n, ?_⟩
  have hle : (k : ℝ) * ((piLo n : ℚ) : ℝ) ≤ X := mul_le_mul_of_nonneg_left (piLo_le_pi n) hkR.le
  have scaled_real : ∀ p : ℚ, ((scaled p s : ℚ) : ℝ) = (k : ℝ) * (p : ℝ) := fun p => scaled_cast p s
  have q1 : (m : ℚ) - 1 / 2 < scaled (piLo n) s := by
    rw [← Rat.cast_lt (K := ℝ), scaled_real]; push_cast; exact h1
  have q2 : scaled (piHi n) s < (m : ℚ) + 1 / 2 := by
    rw [← Rat.cast_lt (K := ℝ), scaled_real]; push_cast; exact h2
  have q3 : scaled (piLo n) s < (m : ℚ) + 1 / 2 := by
    rw [← Rat.cast_lt (K := ℝ), scaled_real]; push_cast; linarith
  have hfl : ⌊scaled (piLo n) s + 1 / 2⌋ = m := Int.floor_eq_iff.2 ⟨by linarith, by linarith⟩
  rw [roundWithin_eq, hfl, if_pos ⟨q1, q2⟩]; rfl

end Enclosure

/-- `Quant` of a positive rational: by R135's 60-decimal enclosure where that decides it, else by the first enclosure
of the sequence that does (R135, last sentence). -/
def quantPos (s : ℚ) (hs : 0 < s) : ℤ :=
  match roundWithin pi60Lo pi60Hi s with
  | some n => n
  | none => (roundWithin (piLo (Nat.find (exists_enclosure_deciding s hs)))
      (piHi (Nat.find (exists_enclosure_deciding s hs))) s).get (Nat.find_spec (exists_enclosure_deciding s hs))

/-- `Quant(s)` (R134): `round_nearest(SCALE·s)`, with `Quant(−s)` = −`Quant(s)` and `Quant(0)` = 0. -/
def quant (s : ℚ) : ℤ :=
  if h : 0 < s then quantPos s h
  else if h' : 0 < -s then -quantPos (-s) h'
  else 0

end Sys2Proof.Machine
end

