-- ==== Sys2Proof/Machine/Spline.lean ====
section
/-! DEFINITION. The spline interpolator (40_spline_interpolator.md): `Validate`, `Runs`, the natural cubic spline of a
run, the interpolated frequency `F`, and `Build`. All arithmetic before `quant` is exact in ℚ (R12, R143). -/

namespace Sys2Proof.Machine

/-- A point's code as a rational. -/
def xOf (p : Point) : ℚ := (p.code.toNat : ℚ)

/-- A point's frequency in Hz as a rational. -/
def yOf (p : Point) : ℚ := (p.freq.toNat : ℚ)

/-! ### Validation (R122) -/

/-- No code is smaller than the code before it (R122 test 2, R202). -/
def sortedCodes : Table → Bool
  | [] => true
  | [_] => true
  | p :: q :: rest => decide (p.code.toNat ≤ q.code.toNat) && sortedCodes (q :: rest)

/-- The first code is 0 and the last code is 2047 (R122 test 3, R123). -/
def coversDomain (T : Table) : Bool :=
  decide (T.head?.map Point.code = some 0) && decide (T.getLast?.map Point.code = some 2047)

/-- `Validate(T)`: `none` for ok, else the first failing cause (R122, R208). -/
def validate (T : Table) : Option Cause :=
  if T.length < Config.nptsMin then some .tooFewPoints
  else if !sortedCodes T then some .unsorted
  else if !coversDomain T then some .domainNotCovered
  else none

/-! ### Runs (R124) -/

/-- `Runs(T)`: the table cut between two consecutive points exactly where their codes are equal (R124). -/
def runs : Table → List Table
  | [] => []
  | [p] => [[p]]
  | p :: q :: rest =>
    match runs (q :: rest) with
    | [] => [[p]]
    | r :: rs => if p.code = q.code then [p] :: r :: rs else (p :: r) :: rs

/-! ### The natural cubic spline of one run (R126 to R130) -/

/-- The Thomas algorithm on R127's system, in table order. `c` and `d` are the eliminated row of the knot `p`:
M_p = d − c·M_q. Answers M_p and the moments of the points after it; the last moment is 0. -/
def momentsFrom (c d : ℚ) (p q : Point) : Table → ℚ × List ℚ
  | [] => (d, [0])
  | r :: rest =>
    let h0 := xOf q - xOf p
    let h1 := xOf r - xOf q
    let pivot := 2 * (h0 + h1) - h0 * c
    let rhs := 6 * ((yOf r - yOf q) / h1 - (yOf q - yOf p) / h0)
    let m := momentsFrom (h1 / pivot) ((rhs - h0 * d) / pivot) q r rest
    (d - c * m.1, m.1 :: m.2)

/-- The moments M_0, …, M_n of a run (R127); M_0 = M_n = 0, and a one-point run has the moment 0 (R129). -/
def moments : Table → List ℚ
  | [] => []
  | [_] => [0]
  | p :: q :: rest => let m := momentsFrom 0 0 p q rest; m.1 :: m.2

/-- A point of a run with its moment. -/
structure Knot where
  pt : Point
  m : ℚ
deriving DecidableEq, Repr

/-- A run's spline, as its knots. -/
abbrev RunSpline := List Knot

/-- The spline of a run (R126, R127). -/
def splineOf (run : Table) : RunSpline := List.zipWith Knot.mk run (moments run)

/-- The value between two neighbouring knots, in R128's equivalent form: with t = x − x_i, u = x_{i+1} − x, h = h_i,
(y_i·u + y_{i+1}·t)/h − t·u·(M_i·(h + u) + M_{i+1}·(h + t))/(6h). -/
def segment (a b : Knot) (x : ℚ) : ℚ :=
  let t := x - xOf a.pt
  let u := xOf b.pt - x
  let h := xOf b.pt - xOf a.pt
  (yOf a.pt * u + yOf b.pt * t) / h - t * u * (a.m * (h + u) + b.m * (h + t)) / (6 * h)

/-- `s_k(c)`, the value of a run's spline at an integer code of its range (R131); `none` outside the range. -/
def runValue : RunSpline → ℕ → Option ℚ
  | [], _ => none
  | [k], c => if c = k.pt.code.toNat then some (yOf k.pt) else none
  | a :: b :: rest, c =>
    if a.pt.code.toNat ≤ c ∧ c ≤ b.pt.code.toNat then some (segment a b c) else runValue (b :: rest) c

/-! ### The interpolated frequency (R131 to R133) -/

/-- The value at `c` of the last of the runs whose range contains `c` (R132). -/
def lastRunValue : List RunSpline → ℕ → Option ℚ
  | [], _ => none
  | r :: rest, c =>
    match lastRunValue rest c with
    | some v => some v
    | none => runValue r c

/-- The splines of all runs of a table. -/
def splinesOf (T : Table) : List RunSpline := (runs T).map splineOf

/-- `F(c)` (R132); `none` where no run's range contains `c`, which no valid table has (R125). -/
def frequencyAt (T : Table) (c : ℕ) : Option ℚ := lastRunValue (splinesOf T) c

/-! ### Quantisation and build (R134 to R139) -/

/-- `Quant(F(c))` from the splines. The 0 stands for a code outside every run: never reached on a valid table (R125);
see notes/assumptions/5.md. -/
def entryValue (splines : List RunSpline) (c : ℕ) : ℤ := quant ((lastRunValue splines c).getD 0)

/-- The integer fits a lookup entry: −2^31 ≤ v ≤ 2^31 − 1 (R136, R137). -/
def fitsEntry (v : ℤ) : Bool := decide (-2147483648 ≤ v ∧ v ≤ 2147483647)

/-- A 2048-entry table from a function of the code. -/
def tabulate (f : ℕ → Entry) : Lookup := ⟨((List.range 2048).map f).toArray, by simp⟩

/-- `Build` after `Validate`: all 2048 values, the range check, then the table (R136, R137). -/
def buildFrom (splines : List RunSpline) : Except Cause Lookup :=
  if (List.range 2048).all fun c => fitsEntry (entryValue splines c) then
    .ok (tabulate fun c => BitVec.ofInt 32 (entryValue splines c))
  else .error .entryOutOfRange

/-- `Build(T)` (R136). -/
def build (T : Table) : Except Cause Lookup :=
  match validate T with
  | some c => .error c
  | none => buildFrom (splinesOf T)

end Sys2Proof.Machine
end

