-- ==== Sys2Proof/Machine/Ops.lean ====
section
/-! DEFINITION. The operations the meanings share: the command port, the output trace, raising an error, writing the
register file, re-deriving the coefficients, the staging table, and replacing the active table. -/

namespace Sys2Proof.Machine

/-! ### The ports -/

/-- The block accepts the word the host presents (R90); there is none where the host presents nothing. -/
def State.accept (s : State) : Option (Word × State) :=
  match s.cmds with
  | [] => none
  | w :: rest => some (w, { s with cmds := rest })

/-- The host presents `w` ahead of whatever it would have presented next (R90). -/
def State.present (s : State) (w : Word) : State := { s with cmds := w :: s.cmds }

/-- The command's one response (R200): the end of every command. -/
def State.respond (s : State) (r : Response) : State := { s with trace := s.trace ++ [.response r] }

/-- `emit state_clear` (R46). -/
def State.emitStateClear (s : State) : State := { s with trace := s.trace ++ [.stateClear] }

/-- `raise <Error>(cause)` (R13, R210): the command ends with the cause's response and the state as it is. There is
no vector, no saved state, no handler and no return (60_exceptions.md, R212). -/
def raise (c : Cause) (s : State) : Result := .next (s.respond (.error c))

/-- `respond OK`. -/
def respondOk (s : State) : Result := .next (s.respond .ok)

/-- The response code of a cause (R200). -/
def Cause.code : Cause → BitVec 4
  | .tooFewPoints => 1
  | .domainNotCovered => 2
  | .unsorted => 3
  | .stagingOverflow => 4
  | .entryOutOfRange => 5
  | .illegalCommand => 15

/-- The 4-bit code on the response port (R200). -/
def Response.code : Response → BitVec 4
  | .ok => 0
  | .error c => c.code

/-- The class of a cause is `ConfigError` (R200). -/
def Cause.isConfigError : Cause → Bool
  | .illegalCommand => false
  | _ => true

/-! ### The register file and the derived coefficients -/

/-- Write `fc` (R22). -/
def State.writeFc (s : State) (fc : Code) : State := { s with regs := { s.regs with fc := fc } }

/-- Write `res` and `filt` (R173). -/
def State.writeResFilt (s : State) (res : ResCode) (filt : BitVec 4) : State :=
  { s with regs := { s.regs with res := res, filt := filt } }

/-- Write `v3off`, `mode` and `vol` (R174). -/
def State.writeModeVol (s : State) (v3off : Bool) (mode : BitVec 3) (vol : BitVec 4) : State :=
  { s with regs := { s.regs with v3off := v3off, mode := mode, vol := vol } }

/-- Zero the register file (R175). -/
def State.clearRegs (s : State) : State := { s with regs := FilterRegisters.zero }

/-- Write `enabled` (R176). -/
def State.writeEnabled (s : State) (b : Bool) : State := { s with enabled := b }

/-- `w0 <- DeriveW0()` (R190). -/
def State.rederiveW0 (s : State) : State := { s with w0 := s.deriveW0 }

/-- `q1024 <- DeriveQ()` (R192). -/
def State.rederiveQ (s : State) : State := { s with q1024 := s.deriveQ }

/-! ### The staging table and the rebuild -/

/-- `stg_cnt <- 0; stg_ovf <- 0` (R152). -/
def State.emptyStaging (s : State) : State := { s with stg := [], stgOvf := false }

/-- `MemWrite(STG:stg_cnt, 1, p); stg_cnt <- stg_cnt + 1` (R153). -/
def State.appendStaging (s : State) (p : Point) : State := { s with stg := s.stg ++ [p] }

/-- The common end of SEL_VARIANT and CAL_COMMIT once `Build` has answered `L` for `T` (R69, R150, R156): `CAL`,
`LOOKUP`, `tbl_valid`, then `w0`. -/
def State.replaceTable (s : State) (T : Table) (L : Lookup) : State := (s.installTable T L).rederiveW0

end Sys2Proof.Machine
end

