-- ==== Sys2Proof/Machine/ChipModelSelector.lean ====
section
/-! DEFINITION. The chip model selector commands (41_chip_model_selector.md R150 to R158). -/

namespace Sys2Proof.Machine

/-- The state SEL_VARIANT leaves (R150): `Build` first, and every write only on success. -/
def selectVariant (v : Variant) (s : State) : State :=
  match build (tableOf s.params v) with
  | .error c => s.respond (.error c)
  | .ok L => ((s.markVariant v (dcOf s.params v)).replaceTable (tableOf s.params v) L).respond .ok

/-- SEL_VARIANT (R150). -/
def execSelVariant (v : Variant) (s : State) : Result := .next (selectVariant v s)

/-- CAL_BEGIN (R152). -/
def execCalBegin (s : State) : Result := respondOk s.emptyStaging

/-- CAL_POINT (R153): the 30th point is dropped and sets `stg_ovf` (R154). -/
def execCalPoint (code : Code) (freq : Freq) (s : State) : Result :=
  if s.stgCnt = Config.nptsMax then raise .stagingOverflow s.setOverflow
  else respondOk (s.appendStaging { code := code, freq := freq })

/-- The state CAL_COMMIT leaves (R156). -/
def commitStaging (s : State) : State :=
  if s.stgOvf then s.respond (.error .stagingOverflow)
  else match build s.stg with
    | .error c => s.respond (.error c)
    | .ok L => (s.replaceTable s.stg L).respond .ok

/-- CAL_COMMIT (R156). -/
def execCalCommit (s : State) : Result := .next (commitStaging s)

end Sys2Proof.Machine
end

