-- ==== Sys2Proof/Machine/FilterRegisterFile.lean ====
section
/-! DEFINITION. The filter register file commands (42_filter_register_file.md R170 to R178). -/

namespace Sys2Proof.Machine

/-- WR_FCLO (R171). -/
def execWrFclo (imm8 : Byte) (s : State) : Result :=
  respondOk (s.writeFc (fcWithLow s.regs.fc imm8)).rederiveW0

/-- WR_FCHI (R172). -/
def execWrFchi (imm8 : Byte) (s : State) : Result :=
  respondOk (s.writeFc (fcWithHigh s.regs.fc imm8)).rederiveW0

/-- WR_RESFILT (R173). -/
def execWrResfilt (imm8 : Byte) (s : State) : Result :=
  respondOk (s.writeResFilt (resOfByte imm8) (filtOfByte imm8)).rederiveQ

/-- WR_MODEVOL (R174). -/
def execWrModevol (imm8 : Byte) (s : State) : Result :=
  respondOk (s.writeModeVol (v3offOfByte imm8) (modeOfByte imm8) (volOfByte imm8))

/-- RESET (R175). -/
def execReset (s : State) : Result :=
  respondOk s.clearRegs.emitStateClear.rederiveW0.rederiveQ

/-- SET_ENABLE (R176): sets the flag to its operand. -/
def execSetEnable (b : Bool) (s : State) : Result :=
  respondOk (s.writeEnabled b)

end Sys2Proof.Machine
end

