-- ==== Sys2Proof/Machine/Dispatch.lean ====
section
/-! DEFINITION. One arm per command: its meaning. -/

namespace Sys2Proof.Machine

def exec (i : Instr) (s : State) : Host.Outcome State Fault Refusal :=
  match i with
  | .wrFclo imm8 => Sys2Proof.Machine.execWrFclo imm8 s
  | .wrFchi imm8 => Sys2Proof.Machine.execWrFchi imm8 s
  | .wrResfilt imm8 => Sys2Proof.Machine.execWrResfilt imm8 s
  | .wrModevol imm8 => Sys2Proof.Machine.execWrModevol imm8 s
  | .reset => Sys2Proof.Machine.execReset s
  | .setEnable b => Sys2Proof.Machine.execSetEnable b s
  | .selVariant v => Sys2Proof.Machine.execSelVariant v s
  | .calBegin => Sys2Proof.Machine.execCalBegin s
  | .calPoint code freq => Sys2Proof.Machine.execCalPoint code freq s
  | .calCommit => Sys2Proof.Machine.execCalCommit s

end Sys2Proof.Machine
end

