-- ==== Sys2Proof/Machine/Step.lean ====
section
/-! DEFINITION. One step: the block accepts the word the host presents, decodes it and runs it to completion (R9, R71,
R90). An illegal word is answered, not refused (R102); while the host presents nothing, nothing happens (R213). -/

namespace Sys2Proof.Machine

def step (s : State) : Host.Outcome State Fault Refusal :=
  match s.accept with
  | none => .next s
  | some (w, s') =>
    match decode w with
    | .ok i => exec i s'
    | .error .illegalCommand => raise .illegalCommand s'

/-- `s` with the word whose low `nbits` bits are `w` presented next on the command port, where `step` takes its next
command from. -/
def State.withFetchWord (s : State) (nbits w : ℕ) : State := s.present (BitVec.ofNat 32 (w % 2 ^ nbits))

end Sys2Proof.Machine
end

