-- ==== Sys2Proof/Machine/Asm.lean ====
section
/-! DEFINITION. The assembler (30_encoding.md R104 to R106): the text of a line, its expansion into commands, and the
words it encodes as. Text is a list of characters. -/

namespace Sys2Proof.Machine

/-! ### From a line to words -/

/-- `CAL_POINT` of a point as written (R104). -/
def pointInstr (p : ℕ × ℕ) : Instr := .calPoint (BitVec.ofNat 11 p.1) (BitVec.ofNat 16 p.2)

/-- The commands a line stands for (R104), the pseudo-instructions expanded (R105). -/
def expand : AsmLine → List Instr
  | .wrFclo imm8 => [.wrFclo (BitVec.ofNat 8 imm8)]
  | .wrFchi imm8 => [.wrFchi (BitVec.ofNat 8 imm8)]
  | .wrResfilt imm8 => [.wrResfilt (BitVec.ofNat 8 imm8)]
  | .wrModevol imm8 => [.wrModevol (BitVec.ofNat 8 imm8)]
  | .reset => [.reset]
  | .setEnable b => [.setEnable (decide (b = 1))]
  | .selVariant v => [.selVariant v]
  | .calBegin => [.calBegin]
  | .calPoint code freq => [pointInstr (code, freq)]
  | .calCommit => [.calCommit]
  | .setFc c => [.wrFclo (BitVec.ofNat 8 (c &&& 7)), .wrFchi (BitVec.ofNat 8 (c >>> 3))]
  | .loadCal points => .calBegin :: (points.map pointInstr ++ [.calCommit])

/-- Assembly of a line: `none` where a number is outside its range (R104). -/
def assemble (l : AsmLine) : Option (List Word) :=
  if l.wellFormed then some ((expand l).map encode) else none

/-- Disassembly of a word: ignored bits are not shown (R106). -/
def disassembleWord (w : Word) : Except DecodeError AsmLine := (decode w).map Instr.disassemble

/-! ### Writing a line -/

/-- A number in decimal. -/
def numberText (n : ℕ) : List Char := Nat.toDigits 10 n

/-- `(c,f)` (R105). -/
def pointText (p : ℕ × ℕ) : List Char := '(' :: (numberText p.1 ++ ',' :: (numberText p.2 ++ [')']))

/-- `A` or `B` (R104). -/
def variantText : Variant → List Char
  | .A => ['A']
  | .B => ['B']

/-- The text of a line (R104, R105), numbers in decimal. -/
def lineText : AsmLine → List Char
  | .wrFclo imm8 => "WR_FCLO ".toList ++ numberText imm8
  | .wrFchi imm8 => "WR_FCHI ".toList ++ numberText imm8
  | .wrResfilt imm8 => "WR_RESFILT ".toList ++ numberText imm8
  | .wrModevol imm8 => "WR_MODEVOL ".toList ++ numberText imm8
  | .reset => "RESET".toList
  | .setEnable b => "SET_ENABLE ".toList ++ numberText b
  | .selVariant v => "SEL_VARIANT ".toList ++ variantText v
  | .calBegin => "CAL_BEGIN".toList
  | .calPoint code freq => "CAL_POINT ".toList ++ numberText code ++ ", ".toList ++ numberText freq
  | .calCommit => "CAL_COMMIT".toList
  | .setFc c => "SET_FC ".toList ++ numberText c
  | .loadCal points => "LOAD_CAL".toList ++ points.flatMap fun p => ' ' :: pointText p

/-! ### Reading a line -/

/-- A piece of a line: a word (a mnemonic, a number, a variant) or a mark. -/
inductive Token where
  | word (cs : List Char)
  | comma
  | lpar
  | rpar
deriving DecidableEq, Repr

/-- The token of the characters read so far, if there are any. -/
def flush (cs : List Char) : List Token := if cs.isEmpty then [] else [.word cs.reverse]

/-- The tokens of a line: spaces separate, `,` `(` `)` stand for themselves. -/
def tokens (acc : List Char) : List Char → List Token
  | [] => flush acc
  | ' ' :: rest => flush acc ++ tokens [] rest
  | ',' :: rest => flush acc ++ .comma :: tokens [] rest
  | '(' :: rest => flush acc ++ .lpar :: tokens [] rest
  | ')' :: rest => flush acc ++ .rpar :: tokens [] rest
  | c :: rest => tokens (c :: acc) rest

/-- The value of a digit below `base`. -/
def digitValue (base : ℕ) (c : Char) : Option ℕ :=
  let n := c.toNat
  let v := if 48 ≤ n ∧ n ≤ 57 then some (n - 48)
    else if 97 ≤ n ∧ n ≤ 102 then some (n - 87)
    else if 65 ≤ n ∧ n ≤ 70 then some (n - 55)
    else none
  v.filter fun d => decide (d < base)

/-- The number the digits write after `acc`. -/
def digitsValue (base acc : ℕ) : List Char → Option ℕ
  | [] => some acc
  | c :: rest => (digitValue base c).bind fun d => digitsValue base (acc * base + d) rest

/-- A number, decimal or hexadecimal with `0x` (R104). -/
def readNumber : List Char → Option ℕ
  | [] => none
  | '0' :: 'x' :: c :: rest => digitsValue 16 0 (c :: rest)
  | c :: rest => digitsValue 10 0 (c :: rest)

/-- `A` or `B` (R104). -/
def readVariant : List Char → Option Variant
  | ['A'] => some .A
  | ['B'] => some .B
  | _ => none

/-- One or more points `(c,f)` and nothing after them (R105). -/
def readPoints : List Token → Option (List (ℕ × ℕ))
  | [.lpar, .word c, .comma, .word f, .rpar] =>
    (readNumber c).bind fun x => (readNumber f).map fun y => [(x, y)]
  | .lpar :: .word c :: .comma :: .word f :: .rpar :: rest =>
    (readNumber c).bind fun x => (readNumber f).bind fun y => (readPoints rest).map fun ps => (x, y) :: ps
  | _ => none

/-- The line that the tokens write (R104, R105). Ranges are `AsmLine.wellFormed`'s matter. -/
def readTokens : List Token → Option AsmLine
  | [.word m] =>
    if m = "RESET".toList then some .reset
    else if m = "CAL_BEGIN".toList then some .calBegin
    else if m = "CAL_COMMIT".toList then some .calCommit
    else none
  | [.word m, .word x] =>
    if m = "WR_FCLO".toList then (readNumber x).map .wrFclo
    else if m = "WR_FCHI".toList then (readNumber x).map .wrFchi
    else if m = "WR_RESFILT".toList then (readNumber x).map .wrResfilt
    else if m = "WR_MODEVOL".toList then (readNumber x).map .wrModevol
    else if m = "SET_ENABLE".toList then (readNumber x).map .setEnable
    else if m = "SEL_VARIANT".toList then (readVariant x).map .selVariant
    else if m = "SET_FC".toList then (readNumber x).map .setFc
    else none
  | [.word m, .word x, .comma, .word y] =>
    if m = "CAL_POINT".toList then (readNumber x).bind fun c => (readNumber y).map fun f => .calPoint c f
    else none
  | .word m :: rest => if m = "LOAD_CAL".toList then (readPoints rest).map .loadCal else none
  | _ => none

/-- The line a text writes (R104, R105), if it writes one. -/
def readLine (text : List Char) : Option AsmLine := readTokens (tokens [] text)

end Sys2Proof.Machine
end

