-- ==== Sys2Proof/Machine/Ports.lean ====
section
/-! DEFINITION. The output ports (10_state.md R44 to R48), the response port (R45), and the external loop's reads of the
two outputs that may have no value (93_implementation_defined.md U1). -/

namespace Sys2Proof.Machine

/-- The twelve output ports (R44), each with its width. `oW0` and `oDc` carry no defined value while their validity
output is 0 (U1). -/
structure Ports where
  oW0 : Option Entry
  oW0Valid : Bool
  oQ1024 : QTerm
  oDc : Option DcOffset
  oDcValid : Bool
  oFilt : BitVec 4
  oV3off : Bool
  oMode : BitVec 3
  oVol : BitVec 4
  oEnabled : Bool
  oFc : Code
  oRes : ResCode
deriving DecidableEq, Repr

/-- What the ports show between two commands (R44, R47). -/
def State.ports (s : State) : Ports :=
  { oW0 := if s.w0Valid then s.w0 else none
    oW0Valid := s.w0Valid
    oQ1024 := s.q1024
    oDc := if s.varValid then s.dc else none
    oDcValid := s.varValid
    oFilt := s.regs.filt
    oV3off := s.regs.v3off
    oMode := s.regs.mode
    oVol := s.regs.vol
    oEnabled := s.enabled
    oFc := s.regs.fc
    oRes := s.regs.res }

/-- The responses of a trace, oldest first. -/
def responsesOf : List OutEvent → List Response
  | [] => []
  | .stateClear :: rest => responsesOf rest
  | .response r :: rest => r :: responsesOf rest

/-- The response port after the last completed command (R45, R200); no code while no command has completed. -/
def State.oResp (s : State) : Option (BitVec 4) := (responsesOf s.trace).getLast?.map Response.code

/-- How many `state_clear` events the trace holds (R46). -/
def State.stateClears (s : State) : ℕ := s.trace.count .stateClear

/-- The external loop uses `o_w0` (R234): a fault of the consumer while `o_w0_valid` = 0 (U1). -/
def State.readW0 (s : State) : Except Fault Entry :=
  match s.ports.oW0 with
  | some v => .ok v
  | none => .error .w0HasNoValue

/-- The external loop uses `o_dc` (R234): a fault of the consumer while `o_dc_valid` = 0 (U1). -/
def State.readDc (s : State) : Except Fault DcOffset :=
  match s.ports.oDc with
  | some v => .ok v
  | none => .error .dcHasNoValue

/-! Named bits of the fields the ports show (R23, R24). The block computes nothing from them (R25). -/

/-- `filt[i]` for i in 0..2 belongs to voice i + 1 (R23). -/
def FilterRegisters.routesVoice (r : FilterRegisters) (voice : Fin 3) : Bool := r.filt.getLsbD voice.val

/-- `filt[3]`: external-input routing (R23). -/
def FilterRegisters.routesExternal (r : FilterRegisters) : Bool := r.filt.getLsbD 3

/-- `mode[2]`: high-pass enable (R24). -/
def FilterRegisters.highPass (r : FilterRegisters) : Bool := r.mode.getLsbD 2

/-- `mode[1]`: band-pass enable (R24). -/
def FilterRegisters.bandPass (r : FilterRegisters) : Bool := r.mode.getLsbD 1

/-- `mode[0]`: low-pass enable (R24). -/
def FilterRegisters.lowPass (r : FilterRegisters) : Bool := r.mode.getLsbD 0

end Sys2Proof.Machine
end

