-- ==== Sys2Proof/Safety.lean ====
section
/-! DEFINITION. What counts as a safe run, in the terms the statements use: the invariants of 10_state.md R27, R29,
R37, R42 and R49 to R53, the constraints on the OPEN parameters (R28, R34, R35), and runs that never stop (R212). -/

namespace Sys2Proof.Machine

/-- The invariants that tie the state together (10_state.md section 6, with R27, R29, R37, R42). -/
structure State.Inv (s : State) : Prop where
  /-- R49 and R50: with `tbl_valid` = 1, `Validate(CAL)` = ok, `LOOKUP` = `Build(CAL)` and `w0` = `LOOKUP[fc]`. -/
  table_present : s.tblValid = true → ∃ T L, s.cal = some T ∧ s.lookup = some L ∧ validate T = none ∧
    build T = .ok L ∧ s.w0 = some (lookupRead L s.regs.fc)
  /-- R29, R42: with `tbl_valid` = 0, `CAL`, `LOOKUP` and `w0` hold no value. -/
  table_absent : s.tblValid = false → s.cal = none ∧ s.lookup = none ∧ s.w0 = none
  /-- R51. -/
  q1024_derived : s.q1024 = qromRead s.regs.res
  /-- R52: with `var_valid` = 1, `dc` = `DC_A` or `DC_B` by `variant`. -/
  variant_present : s.varValid = true → ∃ v, s.variant = some v ∧ s.dc = some (dcOf s.params v)
  /-- R27: with `var_valid` = 0, `variant` and `dc` hold no value. -/
  variant_absent : s.varValid = false → s.variant = none ∧ s.dc = none
  /-- The paragraph after R53: `var_valid` = 1 implies `tbl_valid` = 1. -/
  variant_has_table : s.varValid = true → s.tblValid = true
  /-- R53, first clause. -/
  staging_fits : s.stgCnt ≤ Config.nptsMax
  /-- What R53's second clause leaves in one state: an overflowed staging table is full. -/
  overflow_full : s.stgOvf = true → s.stgCnt = Config.nptsMax
  /-- R37: the active table is a built-in table or fits 29 points. -/
  active_fits : ∀ T, s.cal = some T → T.length ≤ Config.nptsMax ∨ T = s.params.calA ∨ T = s.params.calB

/-- The frequency of the last point of `T` with code `c` (R34 item 4, R133). -/
def lastFreqAt (T : Table) (c : Code) : Option Freq :=
  ((T.filter fun p => decide (p.code = c)).getLast?).map Point.freq

/-- Two consecutive points of `T` have the code `c` (R34 item 5). -/
def hasPair : Table → Code → Bool
  | [], _ => false
  | [_], _ => false
  | p :: q :: rest, c => (decide (p.code = c) && decide (q.code = c)) || hasPair (q :: rest) c

/-- No two consecutive points of `T` have the same code with different frequencies (R35). -/
def noJump : Table → Bool
  | [] => true
  | [_] => true
  | p :: q :: rest => (!decide (p.code = q.code) || decide (p.freq = q.freq)) && noJump (q :: rest)

/-- The constraints on `CAL_A` (R34); items 1 and the field widths hold by the types. -/
structure ConformsA (T : Table) : Prop where
  /-- `n_A` ≤ 29. -/
  fits : T.length ≤ Config.nptsMax
  /-- 2 ≤ `n_A` and items 2, 3. -/
  valid : validate T = none
  /-- Item 4 at code 0. -/
  first_freq : lastFreqAt T 0 = some 220
  /-- Item 4 at code 2047. -/
  last_freq : lastFreqAt T 2047 = some 18000
  /-- Item 5, the pairs. -/
  pairs : hasPair T 1023 = true ∧ hasPair T 1024 = true
  /-- Item 5, the jump down. -/
  jump_down : ∃ f g, lastFreqAt T 1023 = some f ∧ lastFreqAt T 1024 = some g ∧ g.toNat < f.toNat
  /-- Item 6. -/
  builds : ∃ L, build T = .ok L

/-- The constraints on `CAL_B` (R35). -/
structure ConformsB (T : Table) : Prop where
  fits : T.length ≤ Config.nptsMax
  valid : validate T = none
  no_jump : noJump T = true
  builds : ∃ L, build T = .ok L

/-- The constraints on the OPEN parameters of an instance (R34, R35; R7, R28: `DC_A` is negative). -/
structure Conforming (p : Params) : Prop where
  calA : ConformsA p.calA
  calB : ConformsB p.calB
  dcA : p.dcA.toInt < 0

/-- However many steps the block takes from `s`, it stops at no fault and no refusal (R212). -/
def State.NeverStops (s : State) : Prop := ∀ k, ∃ t, Sys2Proof.core.run k s = .next t

/-- A command that rebuilds the dense lookup from `T` in the state `s` (R69): SEL_VARIANT of a variant whose built-in
table is `T` (R150), or CAL_COMMIT of a staging table `T` that did not overflow (R156). -/
def RebuildsFrom (i : Instr) (s : State) (T : Table) : Prop :=
  (∃ v, i = .selVariant v ∧ tableOf s.params v = T) ∨ (i = .calCommit ∧ s.stgOvf = false ∧ s.stg = T)

/-- The five commands that call `DeriveW0` (R190). -/
def rederivesW0 : Instr → Bool
  | .wrFclo _ => true
  | .wrFchi _ => true
  | .wrResfilt _ => false
  | .wrModevol _ => false
  | .reset => true
  | .setEnable _ => false
  | .selVariant _ => true
  | .calBegin => false
  | .calPoint _ _ => false
  | .calCommit => true

/-- The two commands that call `DeriveQ` (R192). -/
def rederivesQ : Instr → Bool
  | .wrFclo _ => false
  | .wrFchi _ => false
  | .wrResfilt _ => true
  | .wrModevol _ => false
  | .reset => true
  | .setEnable _ => false
  | .selVariant _ => false
  | .calBegin => false
  | .calPoint _ _ => false
  | .calCommit => false

/-- Two states agree on everything but the fields the block only stores and shows: `filt`, `v3off`, `mode`, `vol`
(R25), `enabled` (R26), and `variant`, `var_valid`, `dc` (R28). -/
structure SameButShown (s t : State) : Prop where
  fc : s.regs.fc = t.regs.fc
  res : s.regs.res = t.regs.res
  tblValid : s.tblValid = t.tblValid
  cal : s.cal = t.cal
  lookup : s.lookup = t.lookup
  stg : s.stg = t.stg
  stgOvf : s.stgOvf = t.stgOvf
  w0 : s.w0 = t.w0
  q1024 : s.q1024 = t.q1024
  params : s.params = t.params
  cmds : s.cmds = t.cmds
  trace : s.trace = t.trace

end Sys2Proof.Machine
end

