-- ==== Sys2Proof/Certificates/Slice0/Obligations.lean ====
section
/-! DEFINITION. The statements for the provers, each from the rules its docstring names. -/

open Sys2Proof Sys2Proof.Machine

/-! ### The command word (30_encoding.md) -/

/-- A few words of 95_test_vectors.md 2.1, written out from R92 and R93, decode to their commands (X1, X3, X7, X9, X11
to X15, X17). -/
def Obligations.SpecWordsDecode : Prop :=
  decode 0x000000FD#32 = .ok (.wrFclo 0xFD) ∧
  decode 0x2000008B#32 = .ok (.wrResfilt 0x8B) ∧
  decode 0x60000001#32 = .ok (.selVariant .B) ∧
  decode 0x840003E8#32 = .ok (.calPoint 1024 1000) ∧
  decode 0x90000000#32 = .ok .calCommit ∧
  decode 0x0FFFFFFD#32 = .ok (.wrFclo 0xFD) ∧
  decode 0x8C0003E8#32 = .ok (.calPoint 1024 1000) ∧
  decode 0x4ABCDEF0#32 = .ok .reset ∧
  decode 0x5FFFFFFE#32 = .ok (.setEnable false) ∧
  decode 0xC1234567#32 = .error .illegalCommand

/-- R92, R93, R104: every command's canonical word decodes to that command, with every operand at every value. -/
def Obligations.DecodeOfEncode : Prop :=
  ∀ i : Instr, decode (encode i) = .ok i

/-- R104, R106: the canonical word of the command a word decodes to is that word with its ignored bits zero, and
disassembly followed by assembly yields it. -/
def Obligations.DisassembleThenAssemble : Prop :=
  ∀ (w : Word) (i : Instr), decode w = .ok i →
    encode i = w &&& usedBits i ∧
    disassembleWord w = .ok i.disassemble ∧ assemble i.disassemble = some [w &&& usedBits i] ∧
    decode (w &&& usedBits i) = .ok i

/-- R104, R105: the text the model writes for a line whose numbers are in range reads back as that line. -/
def Obligations.LineTextReadsBack : Prop :=
  ∀ l : AsmLine, l.wellFormed = true → readLine (lineText l) = some l

/-- R101: two words that differ only in the bits the format ignores are the same command, and `imm8[7:3]` of WR_FCLO
has no effect. -/
def Obligations.IgnoredBitsHaveNoEffect : Prop :=
  (∀ (w w' : Word) (i : Instr), decode w = .ok i → w &&& usedBits i = w' &&& usedBits i → decode w' = .ok i) ∧
  (∀ (b b' : Byte) (s : State), b &&& 7 = b' &&& 7 → exec (.wrFclo b) s = exec (.wrFclo b') s)

/-- R102: a word is illegal exactly when `op` = `w[31:28]` is 10 or more, and then the block takes it, answers
`IllegalCommand` (15) and changes nothing else. -/
def Obligations.IllegalOpcodeAnswersFifteen : Prop :=
  ∀ (s : State) (w : Word) (rest : List Word), s.cmds = w :: rest →
    (decode w = .error .illegalCommand ↔ 10 ≤ w.toNat / 2 ^ 28) ∧
    (10 ≤ w.toNat / 2 ^ 28 →
      step s = .next { s with cmds := rest, trace := s.trace ++ [.response (.error .illegalCommand)] }) ∧
    (Response.error .illegalCommand).code = 15

/-! ### A step -/

/-- R90, R71: when the word the host presents next decodes to `i`, the step takes that word from the port and runs
`i`. -/
def Obligations.StepRunsDecodedCommand : Prop :=
  ∀ (s : State) (w : Word) (rest : List Word) (i : Instr), s.cmds = w :: rest → decode w = .ok i →
    step s = exec i { s with cmds := rest }

/-- R213, R10: nothing happens between commands (the idle step is the model's form of it, notes/assumptions/4.md). -/
def Obligations.NothingHappensBetweenCommands : Prop :=
  ∀ s : State, s.cmds = [] → step s = .next s

/-- R200, R211, R46: every word the block takes gets exactly one response, with a code R200 gives, after which the
response port shows that code; `state_clear` comes before it exactly for RESET. -/
def Obligations.OneResponsePerCommand : Prop :=
  ∀ (s : State) (w : Word) (rest : List Word), s.cmds = w :: rest →
    ∃ t r, step s = .next t ∧ t.cmds = rest ∧
      (decode w = .ok .reset ∧ t.trace = s.trace ++ [.stateClear, .response r] ∨
        decode w ≠ .ok .reset ∧ t.trace = s.trace ++ [.response r]) ∧
      t.oResp = some r.code ∧ (r.code.toNat ≤ 5 ∨ r.code.toNat = 15)

/-- R212: from every state the block goes on for any number of steps; no command stops it. -/
def Obligations.BlockNeverStops : Prop :=
  ∀ s : State, s.NeverStops

/-! ### The filter register file commands (42_filter_register_file.md) -/

/-- R171: WR_FCLO replaces `fc[2:0]` by `imm8[2:0]`, keeps `fc[10:3]`, re-derives `w0`, answers OK and changes nothing
else. -/
def Obligations.WrFcloResult : Prop :=
  ∀ (b : Byte) (s : State), ∃ t, exec (.wrFclo b) s = .next t ∧
    (∀ i, i < 3 → t.regs.fc.getLsbD i = b.getLsbD i) ∧
    (∀ i, 3 ≤ i → i < 11 → t.regs.fc.getLsbD i = s.regs.fc.getLsbD i) ∧
    t.w0 = (if s.tblValid = true then s.lookup.map (fun L => lookupRead L t.regs.fc) else none) ∧
    t = { s with regs := { s.regs with fc := t.regs.fc }, w0 := t.w0, trace := s.trace ++ [.response .ok] }

/-- R172: WR_FCHI replaces `fc[10:3]` by `imm8[7:0]`, keeps `fc[2:0]`, re-derives `w0`, answers OK and changes nothing
else. -/
def Obligations.WrFchiResult : Prop :=
  ∀ (b : Byte) (s : State), ∃ t, exec (.wrFchi b) s = .next t ∧
    (∀ i, i < 8 → t.regs.fc.getLsbD (i + 3) = b.getLsbD i) ∧
    (∀ i, i < 3 → t.regs.fc.getLsbD i = s.regs.fc.getLsbD i) ∧
    t.w0 = (if s.tblValid = true then s.lookup.map (fun L => lookupRead L t.regs.fc) else none) ∧
    t = { s with regs := { s.regs with fc := t.regs.fc }, w0 := t.w0, trace := s.trace ++ [.response .ok] }

/-- R173: WR_RESFILT sets `res` to `imm8[7:4]` and `filt` to `imm8[3:0]`, re-derives `q1024`, answers OK and changes
nothing else. -/
def Obligations.WrResfiltResult : Prop :=
  ∀ (b : Byte) (s : State), ∃ t, exec (.wrResfilt b) s = .next t ∧
    t.regs.res.toNat = b.toNat / 16 ∧ t.regs.filt.toNat = b.toNat % 16 ∧
    t.q1024 = qromRead t.regs.res ∧
    t = { s with
      regs := { s.regs with res := t.regs.res, filt := t.regs.filt }, q1024 := t.q1024
      trace := s.trace ++ [.response .ok] }

/-- R174: WR_MODEVOL sets `v3off` to `imm8[7]`, `mode` to `imm8[6:4]` and `vol` to `imm8[3:0]`, answers OK and changes
nothing else. -/
def Obligations.WrModevolResult : Prop :=
  ∀ (b : Byte) (s : State), ∃ t, exec (.wrModevol b) s = .next t ∧
    t.regs.v3off = decide (128 ≤ b.toNat) ∧ t.regs.mode.toNat = b.toNat / 16 % 8 ∧
    t.regs.vol.toNat = b.toNat % 16 ∧
    t = { s with
      regs := { s.regs with v3off := t.regs.v3off, mode := t.regs.mode, vol := t.regs.vol }
      trace := s.trace ++ [.response .ok] }

/-- R175: RESET zeroes the register file, emits `state_clear`, gives `w0` the value `LOOKUP[0]` if there is a table and
no value if there is none, gives `q1024` the value 1448, answers OK and changes nothing else. -/
def Obligations.ResetResult : Prop :=
  ∀ s : State, exec .reset s = .next { s with
    regs := { fc := 0, res := 0, filt := 0, v3off := false, mode := 0, vol := 0 }
    w0 := if s.tblValid = true then s.lookup.map (fun L => lookupRead L 0) else none
    q1024 := 1448
    trace := s.trace ++ [.stateClear, .response .ok] }

/-- R176: SET_ENABLE sets `enabled` to its operand, answers OK and changes nothing else. -/
def Obligations.SetEnableResult : Prop :=
  ∀ (b : Bool) (s : State),
    exec (.setEnable b) s = .next { s with enabled := b, trace := s.trace ++ [.response .ok] }

/-- R177: for any bytes X, Y and any start state, the two half-writes end in the same state in both orders, with
`fc` = (Y << 3) | (X & 7) and `w0` = `LOOKUP[fc]`. -/
def Obligations.HalfWritesCommute : Prop :=
  ∀ (X Y : Byte) (s : State), ∃ lo hi t,
    exec (.wrFclo X) s = .next lo ∧ exec (.wrFchi Y) lo = .next t ∧
    exec (.wrFchi Y) s = .next hi ∧ exec (.wrFclo X) hi = .next t ∧
    t.regs.fc.toNat = (Y.toNat <<< 3 ||| (X.toNat &&& 7)) ∧
    (∀ L, s.tblValid = true → s.lookup = some L → t.w0 = some (lookupRead L t.regs.fc))

/-- R105: `SET_FC c` assembles to two words, and running them sets `fc` to `c`. -/
def Obligations.SetFcSetsCode : Prop :=
  ∀ (c : ℕ) (s : State) (rest : List Word), c < 2048 →
    ∃ ws, assemble (.setFc c) = some ws ∧ ws.length = 2 ∧
      (s.cmds = ws ++ rest → ∃ t, core.run 2 s = .next t ∧ t.regs.fc.toNat = c ∧ t.cmds = rest ∧
        t.trace = s.trace ++ [.response .ok, .response .ok])

/-! ### The chip model selector commands (41_chip_model_selector.md) -/

/-- R150: if the variant's table builds, SEL_VARIANT installs the variant, its DC offset, its table and the lookup built
from it, re-derives `w0`, answers OK and changes nothing else; if it does not build, SEL_VARIANT answers the build's
cause and changes nothing. -/
def Obligations.SelVariantResult : Prop :=
  (∀ (s : State) (L : Lookup), build s.params.calA = .ok L →
    exec (.selVariant .A) s = .next { s with
      variant := some .A, dc := some s.params.dcA, varValid := true, cal := some s.params.calA, lookup := some L
      tblValid := true, w0 := some (lookupRead L s.regs.fc), trace := s.trace ++ [.response .ok] }) ∧
  (∀ (s : State) (L : Lookup), build s.params.calB = .ok L →
    exec (.selVariant .B) s = .next { s with
      variant := some .B, dc := some 0, varValid := true, cal := some s.params.calB, lookup := some L
      tblValid := true, w0 := some (lookupRead L s.regs.fc), trace := s.trace ++ [.response .ok] }) ∧
  (∀ (s : State) (c : Cause), build s.params.calA = .error c →
    exec (.selVariant .A) s = .next { s with trace := s.trace ++ [.response (.error c)] }) ∧
  (∀ (s : State) (c : Cause), build s.params.calB = .error c →
    exec (.selVariant .B) s = .next { s with trace := s.trace ++ [.response (.error c)] })

/-- R151, vectors V1, V2, V4: with conforming parameters SEL_VARIANT answers OK; for variant A `variant` = A (0),
`var_valid` = `tbl_valid` = 1, `dc` = `DC_A` < 0 and `w0` is 1449 at `fc` = 0 and 118591 at `fc` = 2047; for variant B
`variant` = B (1), `var_valid` = `tbl_valid` = 1, `dc` = 0, `w0` = `Quant`(`F_B`(`fc`)), and `fc`, `res`, `q1024` are
unchanged. -/
def Obligations.SelVariantOnConformingTables : Prop :=
  ∀ s : State, Conforming s.params →
    (∃ t, exec (.selVariant .A) s = .next t ∧ t.trace = s.trace ++ [.response .ok] ∧
      t.variant = some .A ∧ t.varValid = true ∧ t.tblValid = true ∧
      t.dc = some s.params.dcA ∧ s.params.dcA.toInt < 0 ∧
      (s.regs.fc = 0 → t.w0 = some 1449) ∧ (s.regs.fc = 2047 → t.w0 = some 118591)) ∧
    (∃ t, exec (.selVariant .B) s = .next t ∧ t.trace = s.trace ++ [.response .ok] ∧
      t.variant = some .B ∧ t.varValid = true ∧ t.tblValid = true ∧ t.dc = some 0 ∧
      (∃ f e, frequencyAt s.params.calB s.regs.fc.toNat = some f ∧ t.w0 = some e ∧ e.toInt = quant f) ∧
      t.regs.fc = s.regs.fc ∧ t.regs.res = s.regs.res ∧ t.q1024 = s.q1024)

/-- R150, corner case: selecting again the variant just selected leaves every value unchanged; only the response is
new. -/
def Obligations.SelVariantIdempotent : Prop :=
  ∀ (v : Variant) (s t : State), exec (.selVariant v) s = .next t →
    ∃ r, exec (.selVariant v) t = .next { t with trace := t.trace ++ [.response r] } ∧
      t.trace = s.trace ++ [.response r]

/-- R152: CAL_BEGIN empties the staging table, clears `stg_ovf`, answers OK and changes nothing else. -/
def Obligations.CalBeginResult : Prop :=
  ∀ s : State, exec .calBegin s = .next { s with stg := [], stgOvf := false, trace := s.trace ++ [.response .ok] }

/-- R153: CAL_POINT appends its point while the staging table is not full; at 29 points it drops it, sets `stg_ovf` and
answers `StagingOverflow` (4). Nothing else changes. -/
def Obligations.CalPointResult : Prop :=
  ∀ (c : Code) (f : Freq) (s : State),
    (s.stgCnt ≠ 29 → exec (.calPoint c f) s =
      .next { s with stg := s.stg ++ [⟨c, f⟩], trace := s.trace ++ [.response .ok] }) ∧
    (s.stgCnt = 29 → exec (.calPoint c f) s =
      .next { s with stgOvf := true, trace := s.trace ++ [.response (.error .stagingOverflow)] }) ∧
    (Response.error .stagingOverflow).code = 4

/-- R154: an overflowing CAL_POINT sets `stg_ovf`; it stays set, whatever the command, until a CAL_BEGIN, which clears
it; while it is set, CAL_COMMIT fails with `StagingOverflow`. -/
def Obligations.OverflowIsSticky : Prop :=
  (∀ (c : Code) (f : Freq) (s t : State), s.stgCnt = 29 → exec (.calPoint c f) s = .next t → t.stgOvf = true) ∧
  (∀ (i : Instr) (s t : State), s.stgOvf = true → exec i s = .next t → (t.stgOvf = false ↔ i = .calBegin)) ∧
  (∀ s : State, s.stgOvf = true →
    exec .calCommit s = .next { s with trace := s.trace ++ [.response (.error .stagingOverflow)] })

/-- R156: with `stg_ovf` set, CAL_COMMIT answers `StagingOverflow`; else, if the staging table does not build, the
build's cause; in both cases nothing else changes. Else it installs a copy of the staging table and the lookup built
from it, re-derives `w0`, answers OK and changes nothing else (the staging table included, R158). -/
def Obligations.CalCommitResult : Prop :=
  (∀ s : State, s.stgOvf = true →
    exec .calCommit s = .next { s with trace := s.trace ++ [.response (.error .stagingOverflow)] }) ∧
  (∀ (s : State) (c : Cause), s.stgOvf = false → build s.stg = .error c →
    exec .calCommit s = .next { s with trace := s.trace ++ [.response (.error c)] }) ∧
  (∀ (s : State) (L : Lookup), s.stgOvf = false → build s.stg = .ok L →
    exec .calCommit s = .next { s with
      cal := some s.stg, lookup := some L, tblValid := true, w0 := some (lookupRead L s.regs.fc)
      trace := s.trace ++ [.response .ok] })

/-- R105, R155, R75: `LOAD_CAL` of at most 29 points whose table builds, run word by word from any state, makes exactly
those points, in order, the active table, and the response of its CAL_COMMIT is OK. -/
def Obligations.LoadCalInstallsTable : Prop :=
  ∀ (ps : List (ℕ × ℕ)) (s : State) (ws rest : List Word) (L : Lookup),
    ps.length ≤ 29 → assemble (.loadCal ps) = some ws → s.cmds = ws ++ rest →
    build (ps.map fun p => ⟨BitVec.ofNat 11 p.1, BitVec.ofNat 16 p.2⟩) = .ok L →
    ∃ t, core.run (ps.length + 2) s = .next t ∧ t.cmds = rest ∧
      t.cal = some (ps.map fun p => ⟨BitVec.ofNat 11 p.1, BitVec.ofNat 16 p.2⟩) ∧ t.lookup = some L ∧
      t.tblValid = true ∧ t.w0 = some (lookupRead L s.regs.fc) ∧
      t.trace = s.trace ++ List.replicate (ps.length + 2) (.response .ok)

/-! ### Errors, frames and invariants (60_exceptions.md, 10_state.md) -/

/-- R210: a step that answers an error changes no state but for taking the word and answering, with the one exception
of the overflowing CAL_POINT, which sets `stg_ovf`. -/
def Obligations.ErrorsChangeNoState : Prop :=
  ∀ (s t : State) (w : Word) (rest : List Word) (c : Cause), s.cmds = w :: rest → step s = .next t →
    t.trace = s.trace ++ [.response (.error c)] →
    t = { s with cmds := rest, trace := t.trace } ∨
    (∃ code freq, decode w = .ok (.calPoint code freq) ∧ s.stgCnt = 29 ∧ c = .stagingOverflow ∧
      t = { s with cmds := rest, stgOvf := true, trace := t.trace })

/-- R21, R26, R28, R30, R34, R35, R39: each field is written only by the commands the rules name. -/
def Obligations.OnlyNamedCommandsWrite : Prop :=
  ∀ (i : Instr) (s t : State), exec i s = .next t →
    (t.params = s.params ∧ t.cmds = s.cmds) ∧
    ((∀ b, i ≠ .wrFclo b) → (∀ b, i ≠ .wrFchi b) → (∀ b, i ≠ .wrResfilt b) → (∀ b, i ≠ .wrModevol b) →
      i ≠ .reset → t.regs = s.regs) ∧
    ((∀ b, i ≠ .setEnable b) → t.enabled = s.enabled) ∧
    ((∀ v, i ≠ .selVariant v) → t.variant = s.variant ∧ t.varValid = s.varValid ∧ t.dc = s.dc) ∧
    ((∀ v, i ≠ .selVariant v) → i ≠ .calCommit →
      t.tblValid = s.tblValid ∧ t.cal = s.cal ∧ t.lookup = s.lookup) ∧
    (i ≠ .calBegin → (∀ c f, i ≠ .calPoint c f) → t.stg = s.stg ∧ t.stgOvf = s.stgOvf)

/-- R27, R29: `var_valid` and `tbl_valid`, once 1, stay 1 for ever. -/
def Obligations.ValidityIsForEver : Prop :=
  ∀ s t : State, step s = .next t →
    (s.varValid = true → t.varValid = true) ∧ (s.tblValid = true → t.tblValid = true)

/-- R25, R26, R28: the block computes nothing from `filt`, `v3off`, `mode`, `vol`, `enabled`, `variant`, `var_valid` or
`dc`: two states that differ in those alone still differ in those alone after a step. -/
def Obligations.ShownFieldsComputeNothing : Prop :=
  ∀ s s' : State, SameButShown s s' →
    ∃ t t', step s = .next t ∧ step s' = .next t' ∧ SameButShown t t'

/-- R76, R195: no history. Two commands that rebuild from the same table, in any two states, answer the same, and on OK
leave the same `CAL` and `LOOKUP`, and the same `w0` if `fc` is the same. Any two commands that re-derive `w0` and
answer OK leave equal `w0` where they leave equal `tbl_valid`, `LOOKUP` and `fc`; any two that re-derive `q1024` leave
it equal where they leave equal `res`; whatever else differs. -/
def Obligations.CoefficientsHaveNoHistory : Prop :=
  (∀ (i i' : Instr) (s s' : State) (T : Table), RebuildsFrom i s T → RebuildsFrom i' s' T →
    ∃ t t' r, exec i s = .next t ∧ exec i' s' = .next t' ∧
      t.trace = s.trace ++ [.response r] ∧ t'.trace = s'.trace ++ [.response r] ∧
      (r = .ok → t.cal = some T ∧ t'.cal = some T ∧ t.tblValid = true ∧ t'.tblValid = true ∧
        t.lookup = t'.lookup ∧ (s.regs.fc = s'.regs.fc → t.w0 = t'.w0))) ∧
  (∀ (i i' : Instr) (s s' t t' : State), rederivesW0 i = true → rederivesW0 i' = true →
    exec i s = .next t → exec i' s' = .next t' → t.oResp = some 0 → t'.oResp = some 0 →
    t.tblValid = t'.tblValid → t.lookup = t'.lookup → t.regs.fc = t'.regs.fc → t.w0 = t'.w0) ∧
  (∀ (i i' : Instr) (s s' t t' : State), rederivesQ i = true → rederivesQ i' = true →
    exec i s = .next t → exec i' s' = .next t' → t.regs.res = t'.regs.res → t.q1024 = t'.q1024)

/-- R231, R54: the power-on values, for every instance and every draw of `enabled`. -/
def Obligations.PowerOnValues : Prop :=
  ∀ (p : Params) (e : Bool),
    (State.powerOn p e).regs = { fc := 0, res := 0, filt := 0, v3off := false, mode := 0, vol := 0 } ∧
    (State.powerOn p e).q1024 = qromRead 0 ∧ (qromRead 0).toNat = 1448 ∧
    (State.powerOn p e).varValid = false ∧ (State.powerOn p e).tblValid = false ∧
    (State.powerOn p e).variant = none ∧ (State.powerOn p e).dc = none ∧ (State.powerOn p e).cal = none ∧
    (State.powerOn p e).lookup = none ∧ (State.powerOn p e).w0 = none ∧
    (State.powerOn p e).stgCnt = 0 ∧ (State.powerOn p e).stgOvf = false ∧
    (State.powerOn p e).enabled = e ∧ (State.powerOn p e).stateClears = 1 ∧
    (∃ p' e', State.reset = State.powerOn p' e')

/-- R49 to R53 hold after power-on, and so at `State.reset`. -/
def Obligations.PowerOnMeetsTheInvariants : Prop :=
  (∀ (p : Params) (e : Bool), (State.powerOn p e).Inv) ∧ State.reset.Inv

/-- R49 to R53, R27, R29, R37, R42: every step keeps the invariants. -/
def Obligations.StepKeepsTheInvariants : Prop :=
  ∀ s t : State, s.Inv → step s = .next t → t.Inv

/-! ### The output ports (10_state.md R44) -/

/-- R44: each port shows the named field; `o_w0` and `o_dc` carry a value exactly while their validity output is 1
(U1). -/
def Obligations.PortsShowTheState : Prop :=
  ∀ s : State, s.Inv →
    s.ports = { oW0 := s.w0, oW0Valid := s.tblValid, oQ1024 := s.q1024, oDc := s.dc, oDcValid := s.varValid
                oFilt := s.regs.filt, oV3off := s.regs.v3off, oMode := s.regs.mode, oVol := s.regs.vol
                oEnabled := s.enabled, oFc := s.regs.fc, oRes := s.regs.res } ∧
    (s.ports.oW0.isSome = s.ports.oW0Valid ∧ s.ports.oDc.isSome = s.ports.oDcValid) ∧
    (s.tblValid = false → s.readW0 = .error .w0HasNoValue) ∧
    (s.varValid = false → s.readDc = .error .dcHasNoValue)

/-! ### The coefficient deriver (43_coefficient_deriver.md) -/

/-- R193, R194: `QROM[r]` is 1024/(0.707 + r/15) rounded to nearest, and the entries decrease strictly. -/
def Obligations.QromIsRoundedQuotient : Prop :=
  (∀ r : ResCode, |((qromRead r).toNat : ℚ) - 1024 / (707 / 1000 + (r.toNat : ℚ) / 15)| < 1 / 2) ∧
  (∀ r r' : ResCode, r.toNat < r'.toNat → (qromRead r').toNat < (qromRead r).toNat)

/-! ### The spline interpolator (40_spline_interpolator.md) -/

/-- R122: `Validate` answers the first failing cause in the order `TooFewPoints`, `Unsorted`, `DomainNotCovered`. -/
def Obligations.ValidateReportsFirstCause : Prop :=
  ∀ T : Table,
    (T.length < 2 → validate T = some .tooFewPoints) ∧
    (2 ≤ T.length →
      ((∃ i, ∃ h : i + 1 < T.length, T[i + 1].code.toNat < T[i].code.toNat) → validate T = some .unsorted) ∧
      ((∀ i, ∀ h : i + 1 < T.length, T[i].code.toNat ≤ T[i + 1].code.toNat) →
        ((T.head?.map Point.code ≠ some 0 ∨ T.getLast?.map Point.code ≠ some 2047) →
          validate T = some .domainNotCovered) ∧
        (T.head?.map Point.code = some 0 → T.getLast?.map Point.code = some 2047 → validate T = none)))

/-- R124: `Runs(T)` cuts the table into consecutive pieces exactly between two points of equal code, and on a table of
non-decreasing codes each piece has strictly increasing codes. -/
def Obligations.RunsCutAtEqualCodes : Prop :=
  ∀ T : Table,
    (runs T).flatten = T ∧ (∀ r ∈ runs T, r ≠ []) ∧
    (∀ r ∈ runs T, ∀ i, ∀ h : i + 1 < r.length, r[i].code ≠ r[i + 1].code) ∧
    (∀ k, ∀ h : k + 1 < (runs T).length,
      ((runs T)[k]).getLast?.map Point.code = ((runs T)[k + 1]).head?.map Point.code) ∧
    (sortedCodes T = true → ∀ r ∈ runs T, r.Pairwise fun p q => p.code.toNat < q.code.toNat)

/-- R125: on a valid table the ranges of consecutive runs touch, the first starts at 0 and the last ends at 2047, every
code of the domain lies in the range of a run, and in the ranges of two runs only if it is a repeated code. -/
def Obligations.RunsCoverTheDomain : Prop :=
  ∀ T : Table, validate T = none →
    (∀ k, ∀ h : k + 1 < (runs T).length,
      ((runs T)[k]).getLast?.map Point.code = ((runs T)[k + 1]).head?.map Point.code) ∧
    (∃ r p, (runs T).head? = some r ∧ r.head? = some p ∧ p.code = 0) ∧
    (∃ r q, (runs T).getLast? = some r ∧ r.getLast? = some q ∧ q.code = 2047) ∧
    (∀ c : Code, ∃ r ∈ runs T, ∃ p q, r.head? = some p ∧ r.getLast? = some q ∧
      p.code.toNat ≤ c.toNat ∧ c.toNat ≤ q.code.toNat) ∧
    (∀ k l, ∀ hk : k < (runs T).length, ∀ hl : l < (runs T).length, k < l → ∀ (c : Code) (p q p' q' : Point),
      ((runs T)[k]).head? = some p → ((runs T)[k]).getLast? = some q →
      ((runs T)[l]).head? = some p' → ((runs T)[l]).getLast? = some q' →
      p.code.toNat ≤ c.toNat → c.toNat ≤ q.code.toNat → p'.code.toNat ≤ c.toNat → c.toNat ≤ q'.code.toNat →
      ∃ i, ∃ h : i + 1 < T.length, T[i].code = c ∧ T[i + 1].code = c)

/-- R127: on a run of strictly increasing codes the moments are the one solution of the tridiagonal system with
M_0 = M_n = 0. -/
def Obligations.MomentsSolveTheSystem : Prop :=
  ∀ (run : Table) (Ms : List ℚ), 2 ≤ run.length → (run.Pairwise fun p q => p.code.toNat < q.code.toNat) →
    (Ms = moments run ↔
      Ms.length = run.length ∧ Ms.head? = some 0 ∧ Ms.getLast? = some 0 ∧
      ∀ i, ∀ h : i + 2 < run.length,
        (xOf run[i + 1] - xOf run[i]) * Ms.getD i 0
          + 2 * ((xOf run[i + 1] - xOf run[i]) + (xOf run[i + 2] - xOf run[i + 1])) * Ms.getD (i + 1) 0
          + (xOf run[i + 2] - xOf run[i + 1]) * Ms.getD (i + 2) 0
        = 6 * ((yOf run[i + 2] - yOf run[i + 1]) / (xOf run[i + 2] - xOf run[i + 1])
            - (yOf run[i + 1] - yOf run[i]) / (xOf run[i + 1] - xOf run[i])))

/-- R128: the model's segment is the rule's first formula, takes the two knots' frequencies at the two knots, and, at a
code of a run, is the run's value on whichever adjacent segment is chosen. -/
def Obligations.SegmentIsTheMomentFormula : Prop :=
  (∀ (a b : Knot) (x : ℚ), a.pt.code.toNat < b.pt.code.toNat →
    segment a b x =
      a.m * (xOf b.pt - x) ^ 3 / (6 * (xOf b.pt - xOf a.pt)) + b.m * (x - xOf a.pt) ^ 3 / (6 * (xOf b.pt - xOf a.pt))
        + (yOf a.pt / (xOf b.pt - xOf a.pt) - a.m * (xOf b.pt - xOf a.pt) / 6) * (xOf b.pt - x)
        + (yOf b.pt / (xOf b.pt - xOf a.pt) - b.m * (xOf b.pt - xOf a.pt) / 6) * (x - xOf a.pt) ∧
    segment a b (xOf a.pt) = yOf a.pt ∧ segment a b (xOf b.pt) = yOf b.pt) ∧
  (∀ (K : RunSpline) (c i : ℕ) (h : i + 1 < K.length),
    (K.Pairwise fun a b => a.pt.code.toNat < b.pt.code.toNat) →
    K[i].pt.code.toNat ≤ c → c ≤ K[i + 1].pt.code.toNat → runValue K c = some (segment K[i] K[i + 1] (c : ℚ)))

/-- R126: the spline of a run with two points or more is the natural cubic spline through its points: cubic on each
piece, through every point, with continuous first and second derivative and second derivative zero at both ends. -/
def Obligations.SplineIsNaturalCubic : Prop :=
  ∀ run : Table, 2 ≤ run.length → (run.Pairwise fun p q => p.code.toNat < q.code.toNat) →
    (splineOf run).map Knot.pt = run ∧
    ∃ P : ℕ → Polynomial ℚ,
      (∀ i, ∀ h : i + 1 < (splineOf run).length,
        (P i).natDegree ≤ 3 ∧
        (∀ x, (P i).eval x = segment (splineOf run)[i] (splineOf run)[i + 1] x) ∧
        (P i).eval (xOf (splineOf run)[i].pt) = yOf (splineOf run)[i].pt ∧
        (P i).eval (xOf (splineOf run)[i + 1].pt) = yOf (splineOf run)[i + 1].pt) ∧
      (∀ i, ∀ h : i + 2 < (splineOf run).length,
        (P i).derivative.eval (xOf (splineOf run)[i + 1].pt)
          = (P (i + 1)).derivative.eval (xOf (splineOf run)[i + 1].pt) ∧
        (P i).derivative.derivative.eval (xOf (splineOf run)[i + 1].pt)
          = (P (i + 1)).derivative.derivative.eval (xOf (splineOf run)[i + 1].pt)) ∧
      (∀ p, run.head? = some p → (P 0).derivative.derivative.eval (xOf p) = 0) ∧
      (∀ p, run.getLast? = some p → (P (run.length - 2)).derivative.derivative.eval (xOf p) = 0)

/-- R133 (a): on a valid table, `F` at a code of the table is the frequency of the last point with that code. -/
def Obligations.FrequencyAtPointIsLastOfItsCode : Prop :=
  ∀ (T : Table) (c : Code) (f : Freq), validate T = none → lastFreqAt T c = some f →
    frequencyAt T c.toNat = some (f.toNat : ℚ)

/-- R140, first row: the table (0, a), (2047, b) gives `F(c)` = (a·(2047 − c) + b·c)/2047. -/
def Obligations.TwoPointTableIsALine : Prop :=
  ∀ (a b : Freq) (c : Code),
    frequencyAt [⟨0, a⟩, ⟨2047, b⟩] c.toNat
      = some (((a.toNat : ℚ) * (2047 - (c.toNat : ℚ)) + (b.toNat : ℚ) * (c.toNat : ℚ)) / 2047)

/-- R135: the 60-decimal enclosure encloses π. -/
def Obligations.SixtyDecimalsEnclosePi : Prop :=
  ((pi60Lo : ℚ) : ℝ) < Real.pi ∧ Real.pi < ((pi60Hi : ℚ) : ℝ) ∧ pi60Hi - pi60Lo = 1 / 10 ^ 60

/-- R134: `Quant(s)` is the integer nearest to `SCALE`·s with `SCALE` = π·32768/15625 exact, for every rational s, and
`Quant(−s)` = −`Quant(s)`. -/
def Obligations.QuantIsNearestInteger : Prop :=
  ∀ s : ℚ, |((quant s : ℤ) : ℝ) - Real.pi * (32768 / 15625) * (s : ℝ)| < 1 / 2 ∧ quant (-s) = -quant s

/-- R136: `Build` answers `Validate`'s cause; on a valid table it answers the table whose entry at every code c is
`Quant(F(c))` if all of them fit 32 bits signed, and else fails as a whole with `EntryOutOfRange` (no table that does is
known, R137, U4). -/
def Obligations.BuildStoresQuantisedFrequencies : Prop :=
  ∀ T : Table,
    (∀ c, validate T = some c → build T = .error c) ∧
    (validate T = none → ∃ F : Code → ℚ, (∀ c : Code, frequencyAt T c.toNat = some (F c)) ∧
      ((∃ L, build T = .ok L ∧ ∀ c : Code, (lookupRead L c).toInt = quant (F c)) ∧
          (∀ c, -2 ^ 31 ≤ quant (F c) ∧ quant (F c) ≤ 2 ^ 31 - 1) ∨
        build T = .error .entryOutOfRange ∧ (∃ c, quant (F c) < -2 ^ 31 ∨ 2 ^ 31 - 1 < quant (F c))))

/-- R137: |F(c)| ≤ 65535 + 393210·2047²/8 and |`Quant(F(c))`| < 2^41 on every valid table. -/
def Obligations.FrequencyIsBounded : Prop :=
  ∀ (T : Table) (c : Code) (f : ℚ), validate T = none → frequencyAt T c.toNat = some f →
    |f| ≤ 65535 + 393210 * 2047 ^ 2 / 8 ∧ |quant f| < 2 ^ 41

/-- R34 item 5 with R133, R134 (D0 §8, test property S3): on a conforming `CAL_A` the entry at code 1023 is greater than
the entry at code 1024. -/
def Obligations.VariantADropsAtCode1024 : Prop :=
  ∀ (T : Table) (L : Lookup), ConformsA T → build T = .ok L →
    (lookupRead L 1024).toInt < (lookupRead L 1023).toInt
end

