-- ==== Sys2Proof/Laws/Operands.lean ====
section
/-! SUPPORT. The operand assembly bit by bit (R95 to R98), and that every command is well-formed (R104). -/

namespace Sys2Proof.Machine

/-- R95, R171: bits 2:0 come from `imm8`, bits 10:3 are kept. -/
theorem fcWithLow_bit (fc : Code) (imm8 : Byte) (i : ℕ) (hi : i < 11) :
    (fcWithLow fc imm8).getLsbD i = if i < 3 then imm8.getLsbD i else fc.getLsbD i := by
  simp only [fcWithLow]
  interval_cases i <;> simp

/-- R96, R172: bits 10:3 come from `imm8`, bits 2:0 are kept. -/
theorem fcWithHigh_bit (fc : Code) (imm8 : Byte) (i : ℕ) (hi : i < 11) :
    (fcWithHigh fc imm8).getLsbD i = if i < 3 then fc.getLsbD i else imm8.getLsbD (i - 3) := by
  simp only [fcWithHigh]
  interval_cases i <;> simp

/-- R97: `res[i]` is `imm8[i + 4]`. -/
theorem resOfByte_bit (imm8 : Byte) (i : ℕ) (hi : i < 4) : (resOfByte imm8).getLsbD i = imm8.getLsbD (i + 4) := by
  simp [resOfByte, hi, Nat.add_comm]

/-- R97: `filt[i]` is `imm8[i]`. -/
theorem filtOfByte_bit (imm8 : Byte) (i : ℕ) (hi : i < 4) : (filtOfByte imm8).getLsbD i = imm8.getLsbD i := by
  simp [filtOfByte, hi]

/-- R98: `mode[i]` is `imm8[i + 4]`. -/
theorem modeOfByte_bit (imm8 : Byte) (i : ℕ) (hi : i < 3) : (modeOfByte imm8).getLsbD i = imm8.getLsbD (i + 4) := by
  simp [modeOfByte, hi, Nat.add_comm]

/-- R98: `vol[i]` is `imm8[i]`. -/
theorem volOfByte_bit (imm8 : Byte) (i : ℕ) (hi : i < 4) : (volOfByte imm8).getLsbD i = imm8.getLsbD i := by
  simp [volOfByte, hi]

end Sys2Proof.Machine

namespace Sys2Proof.Laws

/-- Every command is well-formed: its operand fields have the widths of R92, which are R104's ranges. -/
theorem Instr.wellFormed_all (i : Instr) : i.wellFormed = true := by
  cases i with
  | setEnable b => cases b <;> rfl
  | wrFclo imm8 => simpa [Instr.wellFormed, Instr.disassemble, AsmLine.wellFormed] using imm8.isLt
  | wrFchi imm8 => simpa [Instr.wellFormed, Instr.disassemble, AsmLine.wellFormed] using imm8.isLt
  | wrResfilt imm8 => simpa [Instr.wellFormed, Instr.disassemble, AsmLine.wellFormed] using imm8.isLt
  | wrModevol imm8 => simpa [Instr.wellFormed, Instr.disassemble, AsmLine.wellFormed] using imm8.isLt
  | calPoint code freq =>
    simpa [Instr.wellFormed, Instr.disassemble, AsmLine.wellFormed] using And.intro code.isLt freq.isLt
  | reset => rfl
  | selVariant v => rfl
  | calBegin => rfl
  | calCommit => rfl

end Sys2Proof.Laws
end

