-- ==== Sys2Proof/Laws/State.lean ====
section
/-! SUPPORT. Beside State: for each update of `Machine/Ops.lean` and `Machine/Flags.lean`, what each field holds after it.
All are true by `rfl`; no later proof unfolds a record update. -/

namespace Sys2Proof.Machine

variable (s : State)

/-! ### `markVariant` -/

@[simp] theorem State.markVariant_regs (v : Variant) (d : DcOffset) : (s.markVariant v d).regs = s.regs := rfl
@[simp] theorem State.markVariant_enabled (v : Variant) (d : DcOffset) : (s.markVariant v d).enabled = s.enabled := rfl
@[simp] theorem State.markVariant_variant (v : Variant) (d : DcOffset) : (s.markVariant v d).variant = some v := rfl
@[simp] theorem State.markVariant_varValid (v : Variant) (d : DcOffset) : (s.markVariant v d).varValid = true := rfl
@[simp] theorem State.markVariant_dc (v : Variant) (d : DcOffset) : (s.markVariant v d).dc = some d := rfl
@[simp] theorem State.markVariant_tblValid (v : Variant) (d : DcOffset) : (s.markVariant v d).tblValid = s.tblValid := rfl
@[simp] theorem State.markVariant_cal (v : Variant) (d : DcOffset) : (s.markVariant v d).cal = s.cal := rfl
@[simp] theorem State.markVariant_lookup (v : Variant) (d : DcOffset) : (s.markVariant v d).lookup = s.lookup := rfl
@[simp] theorem State.markVariant_stg (v : Variant) (d : DcOffset) : (s.markVariant v d).stg = s.stg := rfl
@[simp] theorem State.markVariant_stgOvf (v : Variant) (d : DcOffset) : (s.markVariant v d).stgOvf = s.stgOvf := rfl
@[simp] theorem State.markVariant_w0 (v : Variant) (d : DcOffset) : (s.markVariant v d).w0 = s.w0 := rfl
@[simp] theorem State.markVariant_q1024 (v : Variant) (d : DcOffset) : (s.markVariant v d).q1024 = s.q1024 := rfl
@[simp] theorem State.markVariant_params (v : Variant) (d : DcOffset) : (s.markVariant v d).params = s.params := rfl
@[simp] theorem State.markVariant_cmds (v : Variant) (d : DcOffset) : (s.markVariant v d).cmds = s.cmds := rfl
@[simp] theorem State.markVariant_trace (v : Variant) (d : DcOffset) : (s.markVariant v d).trace = s.trace := rfl

/-! ### `installTable` -/

@[simp] theorem State.installTable_regs (T : Table) (L : Lookup) : (s.installTable T L).regs = s.regs := rfl
@[simp] theorem State.installTable_enabled (T : Table) (L : Lookup) : (s.installTable T L).enabled = s.enabled := rfl
@[simp] theorem State.installTable_variant (T : Table) (L : Lookup) : (s.installTable T L).variant = s.variant := rfl
@[simp] theorem State.installTable_varValid (T : Table) (L : Lookup) : (s.installTable T L).varValid = s.varValid := rfl
@[simp] theorem State.installTable_dc (T : Table) (L : Lookup) : (s.installTable T L).dc = s.dc := rfl
@[simp] theorem State.installTable_tblValid (T : Table) (L : Lookup) : (s.installTable T L).tblValid = true := rfl
@[simp] theorem State.installTable_cal (T : Table) (L : Lookup) : (s.installTable T L).cal = some T := rfl
@[simp] theorem State.installTable_lookup (T : Table) (L : Lookup) : (s.installTable T L).lookup = some L := rfl
@[simp] theorem State.installTable_stg (T : Table) (L : Lookup) : (s.installTable T L).stg = s.stg := rfl
@[simp] theorem State.installTable_stgOvf (T : Table) (L : Lookup) : (s.installTable T L).stgOvf = s.stgOvf := rfl
@[simp] theorem State.installTable_w0 (T : Table) (L : Lookup) : (s.installTable T L).w0 = s.w0 := rfl
@[simp] theorem State.installTable_q1024 (T : Table) (L : Lookup) : (s.installTable T L).q1024 = s.q1024 := rfl
@[simp] theorem State.installTable_params (T : Table) (L : Lookup) : (s.installTable T L).params = s.params := rfl
@[simp] theorem State.installTable_cmds (T : Table) (L : Lookup) : (s.installTable T L).cmds = s.cmds := rfl
@[simp] theorem State.installTable_trace (T : Table) (L : Lookup) : (s.installTable T L).trace = s.trace := rfl

/-! ### `setOverflow` -/

@[simp] theorem State.setOverflow_regs : (s.setOverflow).regs = s.regs := rfl
@[simp] theorem State.setOverflow_enabled : (s.setOverflow).enabled = s.enabled := rfl
@[simp] theorem State.setOverflow_variant : (s.setOverflow).variant = s.variant := rfl
@[simp] theorem State.setOverflow_varValid : (s.setOverflow).varValid = s.varValid := rfl
@[simp] theorem State.setOverflow_dc : (s.setOverflow).dc = s.dc := rfl
@[simp] theorem State.setOverflow_tblValid : (s.setOverflow).tblValid = s.tblValid := rfl
@[simp] theorem State.setOverflow_cal : (s.setOverflow).cal = s.cal := rfl
@[simp] theorem State.setOverflow_lookup : (s.setOverflow).lookup = s.lookup := rfl
@[simp] theorem State.setOverflow_stg : (s.setOverflow).stg = s.stg := rfl
@[simp] theorem State.setOverflow_stgOvf : (s.setOverflow).stgOvf = true := rfl
@[simp] theorem State.setOverflow_w0 : (s.setOverflow).w0 = s.w0 := rfl
@[simp] theorem State.setOverflow_q1024 : (s.setOverflow).q1024 = s.q1024 := rfl
@[simp] theorem State.setOverflow_params : (s.setOverflow).params = s.params := rfl
@[simp] theorem State.setOverflow_cmds : (s.setOverflow).cmds = s.cmds := rfl
@[simp] theorem State.setOverflow_trace : (s.setOverflow).trace = s.trace := rfl

/-! ### `present` -/

@[simp] theorem State.present_regs (w : Word) : (s.present w).regs = s.regs := rfl
@[simp] theorem State.present_enabled (w : Word) : (s.present w).enabled = s.enabled := rfl
@[simp] theorem State.present_variant (w : Word) : (s.present w).variant = s.variant := rfl
@[simp] theorem State.present_varValid (w : Word) : (s.present w).varValid = s.varValid := rfl
@[simp] theorem State.present_dc (w : Word) : (s.present w).dc = s.dc := rfl
@[simp] theorem State.present_tblValid (w : Word) : (s.present w).tblValid = s.tblValid := rfl
@[simp] theorem State.present_cal (w : Word) : (s.present w).cal = s.cal := rfl
@[simp] theorem State.present_lookup (w : Word) : (s.present w).lookup = s.lookup := rfl
@[simp] theorem State.present_stg (w : Word) : (s.present w).stg = s.stg := rfl
@[simp] theorem State.present_stgOvf (w : Word) : (s.present w).stgOvf = s.stgOvf := rfl
@[simp] theorem State.present_w0 (w : Word) : (s.present w).w0 = s.w0 := rfl
@[simp] theorem State.present_q1024 (w : Word) : (s.present w).q1024 = s.q1024 := rfl
@[simp] theorem State.present_params (w : Word) : (s.present w).params = s.params := rfl
@[simp] theorem State.present_cmds (w : Word) : (s.present w).cmds = w :: s.cmds := rfl
@[simp] theorem State.present_trace (w : Word) : (s.present w).trace = s.trace := rfl

/-! ### `respond` -/

@[simp] theorem State.respond_regs (r : Response) : (s.respond r).regs = s.regs := rfl
@[simp] theorem State.respond_enabled (r : Response) : (s.respond r).enabled = s.enabled := rfl
@[simp] theorem State.respond_variant (r : Response) : (s.respond r).variant = s.variant := rfl
@[simp] theorem State.respond_varValid (r : Response) : (s.respond r).varValid = s.varValid := rfl
@[simp] theorem State.respond_dc (r : Response) : (s.respond r).dc = s.dc := rfl
@[simp] theorem State.respond_tblValid (r : Response) : (s.respond r).tblValid = s.tblValid := rfl
@[simp] theorem State.respond_cal (r : Response) : (s.respond r).cal = s.cal := rfl
@[simp] theorem State.respond_lookup (r : Response) : (s.respond r).lookup = s.lookup := rfl
@[simp] theorem State.respond_stg (r : Response) : (s.respond r).stg = s.stg := rfl
@[simp] theorem State.respond_stgOvf (r : Response) : (s.respond r).stgOvf = s.stgOvf := rfl
@[simp] theorem State.respond_w0 (r : Response) : (s.respond r).w0 = s.w0 := rfl
@[simp] theorem State.respond_q1024 (r : Response) : (s.respond r).q1024 = s.q1024 := rfl
@[simp] theorem State.respond_params (r : Response) : (s.respond r).params = s.params := rfl
@[simp] theorem State.respond_cmds (r : Response) : (s.respond r).cmds = s.cmds := rfl
@[simp] theorem State.respond_trace (r : Response) : (s.respond r).trace = s.trace ++ [.response r] := rfl

/-! ### `emitStateClear` -/

@[simp] theorem State.emitStateClear_regs : (s.emitStateClear).regs = s.regs := rfl
@[simp] theorem State.emitStateClear_enabled : (s.emitStateClear).enabled = s.enabled := rfl
@[simp] theorem State.emitStateClear_variant : (s.emitStateClear).variant = s.variant := rfl
@[simp] theorem State.emitStateClear_varValid : (s.emitStateClear).varValid = s.varValid := rfl
@[simp] theorem State.emitStateClear_dc : (s.emitStateClear).dc = s.dc := rfl
@[simp] theorem State.emitStateClear_tblValid : (s.emitStateClear).tblValid = s.tblValid := rfl
@[simp] theorem State.emitStateClear_cal : (s.emitStateClear).cal = s.cal := rfl
@[simp] theorem State.emitStateClear_lookup : (s.emitStateClear).lookup = s.lookup := rfl
@[simp] theorem State.emitStateClear_stg : (s.emitStateClear).stg = s.stg := rfl
@[simp] theorem State.emitStateClear_stgOvf : (s.emitStateClear).stgOvf = s.stgOvf := rfl
@[simp] theorem State.emitStateClear_w0 : (s.emitStateClear).w0 = s.w0 := rfl
@[simp] theorem State.emitStateClear_q1024 : (s.emitStateClear).q1024 = s.q1024 := rfl
@[simp] theorem State.emitStateClear_params : (s.emitStateClear).params = s.params := rfl
@[simp] theorem State.emitStateClear_cmds : (s.emitStateClear).cmds = s.cmds := rfl
@[simp] theorem State.emitStateClear_trace : (s.emitStateClear).trace = s.trace ++ [.stateClear] := rfl

/-! ### `writeFc` -/

@[simp] theorem State.writeFc_regs (c : Code) : (s.writeFc c).regs = { s.regs with fc := c } := rfl
@[simp] theorem State.writeFc_enabled (c : Code) : (s.writeFc c).enabled = s.enabled := rfl
@[simp] theorem State.writeFc_variant (c : Code) : (s.writeFc c).variant = s.variant := rfl
@[simp] theorem State.writeFc_varValid (c : Code) : (s.writeFc c).varValid = s.varValid := rfl
@[simp] theorem State.writeFc_dc (c : Code) : (s.writeFc c).dc = s.dc := rfl
@[simp] theorem State.writeFc_tblValid (c : Code) : (s.writeFc c).tblValid = s.tblValid := rfl
@[simp] theorem State.writeFc_cal (c : Code) : (s.writeFc c).cal = s.cal := rfl
@[simp] theorem State.writeFc_lookup (c : Code) : (s.writeFc c).lookup = s.lookup := rfl
@[simp] theorem State.writeFc_stg (c : Code) : (s.writeFc c).stg = s.stg := rfl
@[simp] theorem State.writeFc_stgOvf (c : Code) : (s.writeFc c).stgOvf = s.stgOvf := rfl
@[simp] theorem State.writeFc_w0 (c : Code) : (s.writeFc c).w0 = s.w0 := rfl
@[simp] theorem State.writeFc_q1024 (c : Code) : (s.writeFc c).q1024 = s.q1024 := rfl
@[simp] theorem State.writeFc_params (c : Code) : (s.writeFc c).params = s.params := rfl
@[simp] theorem State.writeFc_cmds (c : Code) : (s.writeFc c).cmds = s.cmds := rfl
@[simp] theorem State.writeFc_trace (c : Code) : (s.writeFc c).trace = s.trace := rfl

/-! ### `writeResFilt` -/

@[simp] theorem State.writeResFilt_regs (r : ResCode) (f : BitVec 4) : (s.writeResFilt r f).regs = { s.regs with res := r, filt := f } := rfl
@[simp] theorem State.writeResFilt_enabled (r : ResCode) (f : BitVec 4) : (s.writeResFilt r f).enabled = s.enabled := rfl
@[simp] theorem State.writeResFilt_variant (r : ResCode) (f : BitVec 4) : (s.writeResFilt r f).variant = s.variant := rfl
@[simp] theorem State.writeResFilt_varValid (r : ResCode) (f : BitVec 4) : (s.writeResFilt r f).varValid = s.varValid := rfl
@[simp] theorem State.writeResFilt_dc (r : ResCode) (f : BitVec 4) : (s.writeResFilt r f).dc = s.dc := rfl
@[simp] theorem State.writeResFilt_tblValid (r : ResCode) (f : BitVec 4) : (s.writeResFilt r f).tblValid = s.tblValid := rfl
@[simp] theorem State.writeResFilt_cal (r : ResCode) (f : BitVec 4) : (s.writeResFilt r f).cal = s.cal := rfl
@[simp] theorem State.writeResFilt_lookup (r : ResCode) (f : BitVec 4) : (s.writeResFilt r f).lookup = s.lookup := rfl
@[simp] theorem State.writeResFilt_stg (r : ResCode) (f : BitVec 4) : (s.writeResFilt r f).stg = s.stg := rfl
@[simp] theorem State.writeResFilt_stgOvf (r : ResCode) (f : BitVec 4) : (s.writeResFilt r f).stgOvf = s.stgOvf := rfl
@[simp] theorem State.writeResFilt_w0 (r : ResCode) (f : BitVec 4) : (s.writeResFilt r f).w0 = s.w0 := rfl
@[simp] theorem State.writeResFilt_q1024 (r : ResCode) (f : BitVec 4) : (s.writeResFilt r f).q1024 = s.q1024 := rfl
@[simp] theorem State.writeResFilt_params (r : ResCode) (f : BitVec 4) : (s.writeResFilt r f).params = s.params := rfl
@[simp] theorem State.writeResFilt_cmds (r : ResCode) (f : BitVec 4) : (s.writeResFilt r f).cmds = s.cmds := rfl
@[simp] theorem State.writeResFilt_trace (r : ResCode) (f : BitVec 4) : (s.writeResFilt r f).trace = s.trace := rfl

/-! ### `writeModeVol` -/

@[simp] theorem State.writeModeVol_regs (b : Bool) (m : BitVec 3) (v : BitVec 4) : (s.writeModeVol b m v).regs = { s.regs with v3off := b, mode := m, vol := v } := rfl
@[simp] theorem State.writeModeVol_enabled (b : Bool) (m : BitVec 3) (v : BitVec 4) : (s.writeModeVol b m v).enabled = s.enabled := rfl
@[simp] theorem State.writeModeVol_variant (b : Bool) (m : BitVec 3) (v : BitVec 4) : (s.writeModeVol b m v).variant = s.variant := rfl
@[simp] theorem State.writeModeVol_varValid (b : Bool) (m : BitVec 3) (v : BitVec 4) : (s.writeModeVol b m v).varValid = s.varValid := rfl
@[simp] theorem State.writeModeVol_dc (b : Bool) (m : BitVec 3) (v : BitVec 4) : (s.writeModeVol b m v).dc = s.dc := rfl
@[simp] theorem State.writeModeVol_tblValid (b : Bool) (m : BitVec 3) (v : BitVec 4) : (s.writeModeVol b m v).tblValid = s.tblValid := rfl
@[simp] theorem State.writeModeVol_cal (b : Bool) (m : BitVec 3) (v : BitVec 4) : (s.writeModeVol b m v).cal = s.cal := rfl
@[simp] theorem State.writeModeVol_lookup (b : Bool) (m : BitVec 3) (v : BitVec 4) : (s.writeModeVol b m v).lookup = s.lookup := rfl
@[simp] theorem State.writeModeVol_stg (b : Bool) (m : BitVec 3) (v : BitVec 4) : (s.writeModeVol b m v).stg = s.stg := rfl
@[simp] theorem State.writeModeVol_stgOvf (b : Bool) (m : BitVec 3) (v : BitVec 4) : (s.writeModeVol b m v).stgOvf = s.stgOvf := rfl
@[simp] theorem State.writeModeVol_w0 (b : Bool) (m : BitVec 3) (v : BitVec 4) : (s.writeModeVol b m v).w0 = s.w0 := rfl
@[simp] theorem State.writeModeVol_q1024 (b : Bool) (m : BitVec 3) (v : BitVec 4) : (s.writeModeVol b m v).q1024 = s.q1024 := rfl
@[simp] theorem State.writeModeVol_params (b : Bool) (m : BitVec 3) (v : BitVec 4) : (s.writeModeVol b m v).params = s.params := rfl
@[simp] theorem State.writeModeVol_cmds (b : Bool) (m : BitVec 3) (v : BitVec 4) : (s.writeModeVol b m v).cmds = s.cmds := rfl
@[simp] theorem State.writeModeVol_trace (b : Bool) (m : BitVec 3) (v : BitVec 4) : (s.writeModeVol b m v).trace = s.trace := rfl

/-! ### `clearRegs` -/

@[simp] theorem State.clearRegs_regs : (s.clearRegs).regs = FilterRegisters.zero := rfl
@[simp] theorem State.clearRegs_enabled : (s.clearRegs).enabled = s.enabled := rfl
@[simp] theorem State.clearRegs_variant : (s.clearRegs).variant = s.variant := rfl
@[simp] theorem State.clearRegs_varValid : (s.clearRegs).varValid = s.varValid := rfl
@[simp] theorem State.clearRegs_dc : (s.clearRegs).dc = s.dc := rfl
@[simp] theorem State.clearRegs_tblValid : (s.clearRegs).tblValid = s.tblValid := rfl
@[simp] theorem State.clearRegs_cal : (s.clearRegs).cal = s.cal := rfl
@[simp] theorem State.clearRegs_lookup : (s.clearRegs).lookup = s.lookup := rfl
@[simp] theorem State.clearRegs_stg : (s.clearRegs).stg = s.stg := rfl
@[simp] theorem State.clearRegs_stgOvf : (s.clearRegs).stgOvf = s.stgOvf := rfl
@[simp] theorem State.clearRegs_w0 : (s.clearRegs).w0 = s.w0 := rfl
@[simp] theorem State.clearRegs_q1024 : (s.clearRegs).q1024 = s.q1024 := rfl
@[simp] theorem State.clearRegs_params : (s.clearRegs).params = s.params := rfl
@[simp] theorem State.clearRegs_cmds : (s.clearRegs).cmds = s.cmds := rfl
@[simp] theorem State.clearRegs_trace : (s.clearRegs).trace = s.trace := rfl

/-! ### `writeEnabled` -/

@[simp] theorem State.writeEnabled_regs (b : Bool) : (s.writeEnabled b).regs = s.regs := rfl
@[simp] theorem State.writeEnabled_enabled (b : Bool) : (s.writeEnabled b).enabled = b := rfl
@[simp] theorem State.writeEnabled_variant (b : Bool) : (s.writeEnabled b).variant = s.variant := rfl
@[simp] theorem State.writeEnabled_varValid (b : Bool) : (s.writeEnabled b).varValid = s.varValid := rfl
@[simp] theorem State.writeEnabled_dc (b : Bool) : (s.writeEnabled b).dc = s.dc := rfl
@[simp] theorem State.writeEnabled_tblValid (b : Bool) : (s.writeEnabled b).tblValid = s.tblValid := rfl
@[simp] theorem State.writeEnabled_cal (b : Bool) : (s.writeEnabled b).cal = s.cal := rfl
@[simp] theorem State.writeEnabled_lookup (b : Bool) : (s.writeEnabled b).lookup = s.lookup := rfl
@[simp] theorem State.writeEnabled_stg (b : Bool) : (s.writeEnabled b).stg = s.stg := rfl
@[simp] theorem State.writeEnabled_stgOvf (b : Bool) : (s.writeEnabled b).stgOvf = s.stgOvf := rfl
@[simp] theorem State.writeEnabled_w0 (b : Bool) : (s.writeEnabled b).w0 = s.w0 := rfl
@[simp] theorem State.writeEnabled_q1024 (b : Bool) : (s.writeEnabled b).q1024 = s.q1024 := rfl
@[simp] theorem State.writeEnabled_params (b : Bool) : (s.writeEnabled b).params = s.params := rfl
@[simp] theorem State.writeEnabled_cmds (b : Bool) : (s.writeEnabled b).cmds = s.cmds := rfl
@[simp] theorem State.writeEnabled_trace (b : Bool) : (s.writeEnabled b).trace = s.trace := rfl

/-! ### `rederiveW0` -/

@[simp] theorem State.rederiveW0_regs : (s.rederiveW0).regs = s.regs := rfl
@[simp] theorem State.rederiveW0_enabled : (s.rederiveW0).enabled = s.enabled := rfl
@[simp] theorem State.rederiveW0_variant : (s.rederiveW0).variant = s.variant := rfl
@[simp] theorem State.rederiveW0_varValid : (s.rederiveW0).varValid = s.varValid := rfl
@[simp] theorem State.rederiveW0_dc : (s.rederiveW0).dc = s.dc := rfl
@[simp] theorem State.rederiveW0_tblValid : (s.rederiveW0).tblValid = s.tblValid := rfl
@[simp] theorem State.rederiveW0_cal : (s.rederiveW0).cal = s.cal := rfl
@[simp] theorem State.rederiveW0_lookup : (s.rederiveW0).lookup = s.lookup := rfl
@[simp] theorem State.rederiveW0_stg : (s.rederiveW0).stg = s.stg := rfl
@[simp] theorem State.rederiveW0_stgOvf : (s.rederiveW0).stgOvf = s.stgOvf := rfl
@[simp] theorem State.rederiveW0_w0 : (s.rederiveW0).w0 = s.deriveW0 := rfl
@[simp] theorem State.rederiveW0_q1024 : (s.rederiveW0).q1024 = s.q1024 := rfl
@[simp] theorem State.rederiveW0_params : (s.rederiveW0).params = s.params := rfl
@[simp] theorem State.rederiveW0_cmds : (s.rederiveW0).cmds = s.cmds := rfl
@[simp] theorem State.rederiveW0_trace : (s.rederiveW0).trace = s.trace := rfl

/-! ### `rederiveQ` -/

@[simp] theorem State.rederiveQ_regs : (s.rederiveQ).regs = s.regs := rfl
@[simp] theorem State.rederiveQ_enabled : (s.rederiveQ).enabled = s.enabled := rfl
@[simp] theorem State.rederiveQ_variant : (s.rederiveQ).variant = s.variant := rfl
@[simp] theorem State.rederiveQ_varValid : (s.rederiveQ).varValid = s.varValid := rfl
@[simp] theorem State.rederiveQ_dc : (s.rederiveQ).dc = s.dc := rfl
@[simp] theorem State.rederiveQ_tblValid : (s.rederiveQ).tblValid = s.tblValid := rfl
@[simp] theorem State.rederiveQ_cal : (s.rederiveQ).cal = s.cal := rfl
@[simp] theorem State.rederiveQ_lookup : (s.rederiveQ).lookup = s.lookup := rfl
@[simp] theorem State.rederiveQ_stg : (s.rederiveQ).stg = s.stg := rfl
@[simp] theorem State.rederiveQ_stgOvf : (s.rederiveQ).stgOvf = s.stgOvf := rfl
@[simp] theorem State.rederiveQ_w0 : (s.rederiveQ).w0 = s.w0 := rfl
@[simp] theorem State.rederiveQ_q1024 : (s.rederiveQ).q1024 = s.deriveQ := rfl
@[simp] theorem State.rederiveQ_params : (s.rederiveQ).params = s.params := rfl
@[simp] theorem State.rederiveQ_cmds : (s.rederiveQ).cmds = s.cmds := rfl
@[simp] theorem State.rederiveQ_trace : (s.rederiveQ).trace = s.trace := rfl

/-! ### `emptyStaging` -/

@[simp] theorem State.emptyStaging_regs : (s.emptyStaging).regs = s.regs := rfl
@[simp] theorem State.emptyStaging_enabled : (s.emptyStaging).enabled = s.enabled := rfl
@[simp] theorem State.emptyStaging_variant : (s.emptyStaging).variant = s.variant := rfl
@[simp] theorem State.emptyStaging_varValid : (s.emptyStaging).varValid = s.varValid := rfl
@[simp] theorem State.emptyStaging_dc : (s.emptyStaging).dc = s.dc := rfl
@[simp] theorem State.emptyStaging_tblValid : (s.emptyStaging).tblValid = s.tblValid := rfl
@[simp] theorem State.emptyStaging_cal : (s.emptyStaging).cal = s.cal := rfl
@[simp] theorem State.emptyStaging_lookup : (s.emptyStaging).lookup = s.lookup := rfl
@[simp] theorem State.emptyStaging_stg : (s.emptyStaging).stg = [] := rfl
@[simp] theorem State.emptyStaging_stgOvf : (s.emptyStaging).stgOvf = false := rfl
@[simp] theorem State.emptyStaging_w0 : (s.emptyStaging).w0 = s.w0 := rfl
@[simp] theorem State.emptyStaging_q1024 : (s.emptyStaging).q1024 = s.q1024 := rfl
@[simp] theorem State.emptyStaging_params : (s.emptyStaging).params = s.params := rfl
@[simp] theorem State.emptyStaging_cmds : (s.emptyStaging).cmds = s.cmds := rfl
@[simp] theorem State.emptyStaging_trace : (s.emptyStaging).trace = s.trace := rfl

/-! ### `appendStaging` -/

@[simp] theorem State.appendStaging_regs (p : Point) : (s.appendStaging p).regs = s.regs := rfl
@[simp] theorem State.appendStaging_enabled (p : Point) : (s.appendStaging p).enabled = s.enabled := rfl
@[simp] theorem State.appendStaging_variant (p : Point) : (s.appendStaging p).variant = s.variant := rfl
@[simp] theorem State.appendStaging_varValid (p : Point) : (s.appendStaging p).varValid = s.varValid := rfl
@[simp] theorem State.appendStaging_dc (p : Point) : (s.appendStaging p).dc = s.dc := rfl
@[simp] theorem State.appendStaging_tblValid (p : Point) : (s.appendStaging p).tblValid = s.tblValid := rfl
@[simp] theorem State.appendStaging_cal (p : Point) : (s.appendStaging p).cal = s.cal := rfl
@[simp] theorem State.appendStaging_lookup (p : Point) : (s.appendStaging p).lookup = s.lookup := rfl
@[simp] theorem State.appendStaging_stg (p : Point) : (s.appendStaging p).stg = s.stg ++ [p] := rfl
@[simp] theorem State.appendStaging_stgOvf (p : Point) : (s.appendStaging p).stgOvf = s.stgOvf := rfl
@[simp] theorem State.appendStaging_w0 (p : Point) : (s.appendStaging p).w0 = s.w0 := rfl
@[simp] theorem State.appendStaging_q1024 (p : Point) : (s.appendStaging p).q1024 = s.q1024 := rfl
@[simp] theorem State.appendStaging_params (p : Point) : (s.appendStaging p).params = s.params := rfl
@[simp] theorem State.appendStaging_cmds (p : Point) : (s.appendStaging p).cmds = s.cmds := rfl
@[simp] theorem State.appendStaging_trace (p : Point) : (s.appendStaging p).trace = s.trace := rfl

/-! ### `replaceTable`, the end of a rebuild -/

@[simp] theorem State.replaceTable_regs (T : Table) (L : Lookup) : (s.replaceTable T L).regs = s.regs := rfl
@[simp] theorem State.replaceTable_enabled (T : Table) (L : Lookup) : (s.replaceTable T L).enabled = s.enabled := rfl
@[simp] theorem State.replaceTable_variant (T : Table) (L : Lookup) : (s.replaceTable T L).variant = s.variant := rfl
@[simp] theorem State.replaceTable_varValid (T : Table) (L : Lookup) : (s.replaceTable T L).varValid = s.varValid := rfl
@[simp] theorem State.replaceTable_dc (T : Table) (L : Lookup) : (s.replaceTable T L).dc = s.dc := rfl
@[simp] theorem State.replaceTable_tblValid (T : Table) (L : Lookup) : (s.replaceTable T L).tblValid = true := rfl
@[simp] theorem State.replaceTable_cal (T : Table) (L : Lookup) : (s.replaceTable T L).cal = some T := rfl
@[simp] theorem State.replaceTable_lookup (T : Table) (L : Lookup) : (s.replaceTable T L).lookup = some L := rfl
@[simp] theorem State.replaceTable_stg (T : Table) (L : Lookup) : (s.replaceTable T L).stg = s.stg := rfl
@[simp] theorem State.replaceTable_stgOvf (T : Table) (L : Lookup) : (s.replaceTable T L).stgOvf = s.stgOvf := rfl
@[simp] theorem State.replaceTable_w0 (T : Table) (L : Lookup) : (s.replaceTable T L).w0 = some (lookupRead L s.regs.fc) := rfl
@[simp] theorem State.replaceTable_q1024 (T : Table) (L : Lookup) : (s.replaceTable T L).q1024 = s.q1024 := rfl
@[simp] theorem State.replaceTable_params (T : Table) (L : Lookup) : (s.replaceTable T L).params = s.params := rfl
@[simp] theorem State.replaceTable_cmds (T : Table) (L : Lookup) : (s.replaceTable T L).cmds = s.cmds := rfl
@[simp] theorem State.replaceTable_trace (T : Table) (L : Lookup) : (s.replaceTable T L).trace = s.trace := rfl

/-! ### `State.powerOn` -/

@[simp] theorem State.powerOn_regs (p : Params) (e : Bool) : (State.powerOn p e).regs = FilterRegisters.zero := rfl
@[simp] theorem State.powerOn_enabled (p : Params) (e : Bool) : (State.powerOn p e).enabled = e := rfl
@[simp] theorem State.powerOn_variant (p : Params) (e : Bool) : (State.powerOn p e).variant = none := rfl
@[simp] theorem State.powerOn_varValid (p : Params) (e : Bool) : (State.powerOn p e).varValid = false := rfl
@[simp] theorem State.powerOn_dc (p : Params) (e : Bool) : (State.powerOn p e).dc = none := rfl
@[simp] theorem State.powerOn_tblValid (p : Params) (e : Bool) : (State.powerOn p e).tblValid = false := rfl
@[simp] theorem State.powerOn_cal (p : Params) (e : Bool) : (State.powerOn p e).cal = none := rfl
@[simp] theorem State.powerOn_lookup (p : Params) (e : Bool) : (State.powerOn p e).lookup = none := rfl
@[simp] theorem State.powerOn_stg (p : Params) (e : Bool) : (State.powerOn p e).stg = [] := rfl
@[simp] theorem State.powerOn_stgOvf (p : Params) (e : Bool) : (State.powerOn p e).stgOvf = false := rfl
@[simp] theorem State.powerOn_w0 (p : Params) (e : Bool) : (State.powerOn p e).w0 = none := rfl
@[simp] theorem State.powerOn_q1024 (p : Params) (e : Bool) : (State.powerOn p e).q1024 = 1448 := rfl
@[simp] theorem State.powerOn_params (p : Params) (e : Bool) : (State.powerOn p e).params = p := rfl
@[simp] theorem State.powerOn_cmds (p : Params) (e : Bool) : (State.powerOn p e).cmds = [] := rfl
@[simp] theorem State.powerOn_trace (p : Params) (e : Bool) : (State.powerOn p e).trace = [.stateClear] := rfl

end Sys2Proof.Machine
end

