-- ==== Sys2Proof/Laws/Ops.lean ====
section
/-! SUPPORT. One lemma per shared operation: everything it can do, for later proofs to cite. -/

namespace Sys2Proof.Machine

/-! ### The command port -/

@[simp] theorem accept_of_nil {s : State} (h : s.cmds = []) : s.accept = none := by
  simp [State.accept, h]

@[simp] theorem accept_of_cons {s : State} {w : Word} {rest : List Word} (h : s.cmds = w :: rest) :
    s.accept = some (w, { s with cmds := rest }) := by
  simp [State.accept, h]

theorem accept_present (s : State) (w : Word) : (s.present w).accept = some (w, s) := rfl

/-- The word placed by `withFetchWord` is the one the next step accepts, and accepting it gives back `s`. -/
theorem accept_withFetchWord (s : State) (nbits w : ℕ) :
    (s.withFetchWord nbits w).accept = some (BitVec.ofNat 32 (w % 2 ^ nbits), s) := rfl

/-! ### Ending a command -/

theorem raise_eq_next {c : Cause} {s t : State} (h : raise c s = .next t) : t = s.respond (.error c) := by
  simpa [raise] using h.symm

theorem respondOk_eq_next {s t : State} (h : respondOk s = .next t) : t = s.respond .ok := by
  simpa [respondOk] using h.symm

/-- A response code is one R200 gives: 0 to 5 or 15. -/
theorem response_code_cases (r : Response) : r.code.toNat ≤ 5 ∨ r.code.toNat = 15 := by
  cases r with
  | ok => decide
  | error c => cases c <;> decide

theorem responsesOf_append (xs ys : List OutEvent) : responsesOf (xs ++ ys) = responsesOf xs ++ responsesOf ys := by
  induction xs with
  | nil => rfl
  | cons e es ih => cases e <;> simp [responsesOf, ih]

/-- The response port shows the response just given (R45, R200). -/
@[simp] theorem oResp_respond (s : State) (r : Response) : (s.respond r).oResp = some r.code := by
  simp [State.oResp, State.respond, responsesOf_append, responsesOf]

theorem response_code_injective {r r' : Response} (h : r.code = r'.code) : r = r' := by
  revert h
  cases r with
  | ok => cases r' with
    | ok => simp
    | error c => cases c <;> decide
  | error c => cases r' with
    | ok => cases c <;> decide
    | error c' => cases c <;> cases c' <;> decide

/-! ### The coefficient deriver -/

theorem deriveW0_of_invalid {s : State} (h : s.tblValid = false) : s.deriveW0 = none := by
  simp [State.deriveW0, h]

theorem deriveW0_of_valid {s : State} {L : Lookup} (h : s.tblValid = true) (hL : s.lookup = some L) :
    s.deriveW0 = some (lookupRead L s.regs.fc) := by
  simp [State.deriveW0, h, hL]

theorem deriveW0_respond (s : State) (r : Response) : (s.respond r).deriveW0 = s.deriveW0 := rfl

@[simp] theorem qromRead_zero : qromRead 0#4 = 1448#11 := by decide

/-! ### The outcomes of the two rebuilding commands -/

/-- Everything SEL_VARIANT can do (R150): the build's error and nothing else, or the rebuild. -/
theorem selectVariant_cases (v : Variant) (s : State) :
    (∃ c, build (tableOf s.params v) = .error c ∧ selectVariant v s = s.respond (.error c)) ∨
    (∃ L, build (tableOf s.params v) = .ok L ∧ selectVariant v s =
      ((s.markVariant v (dcOf s.params v)).replaceTable (tableOf s.params v) L).respond .ok) := by
  unfold selectVariant
  cases h : build (tableOf s.params v) with
  | error c => exact .inl ⟨c, rfl, rfl⟩
  | ok L => exact .inr ⟨L, rfl, rfl⟩

/-- Everything CAL_COMMIT can do (R156): `StagingOverflow`, the build's error, or the rebuild. -/
theorem commitStaging_cases (s : State) :
    (s.stgOvf = true ∧ commitStaging s = s.respond (.error .stagingOverflow)) ∨
    (s.stgOvf = false ∧ ∃ c, build s.stg = .error c ∧ commitStaging s = s.respond (.error c)) ∨
    (s.stgOvf = false ∧ ∃ L, build s.stg = .ok L ∧ commitStaging s = (s.replaceTable s.stg L).respond .ok) := by
  unfold commitStaging
  cases ho : s.stgOvf with
  | true => exact .inl ⟨rfl, rfl⟩
  | false =>
    cases h : build s.stg with
    | error c => exact .inr (.inl ⟨rfl, c, rfl, rfl⟩)
    | ok L => exact .inr (.inr ⟨rfl, L, rfl, rfl⟩)

/-- Everything a command that rebuilds from `T` can do: the build's error, or the table, its lookup and its `w0`. -/
theorem exec_cases_of_rebuildsFrom {i : Instr} {s : State} {T : Table} (h : RebuildsFrom i s T) :
    (∃ c, build T = .error c ∧ exec i s = .next (s.respond (.error c))) ∨
    (∃ L t, build T = .ok L ∧ exec i s = .next t ∧ t.trace = s.trace ++ [.response .ok] ∧ t.cal = some T ∧
      t.tblValid = true ∧ t.lookup = some L ∧ t.w0 = some (lookupRead L s.regs.fc) ∧ t.regs = s.regs) := by
  rcases h with ⟨v, rfl, rfl⟩ | ⟨rfl, ho, rfl⟩
  · rcases selectVariant_cases v s with ⟨c, hb, he⟩ | ⟨L, hb, he⟩
    · exact .inl ⟨c, hb, congrArg Host.Outcome.next he⟩
    · exact .inr ⟨L, _, hb, congrArg Host.Outcome.next he, rfl, rfl, rfl, rfl, rfl, rfl⟩
  · rcases commitStaging_cases s with ⟨h, -⟩ | ⟨-, c, hb, he⟩ | ⟨-, L, hb, he⟩
    · simp [ho] at h
    · exact .inl ⟨c, hb, congrArg Host.Outcome.next he⟩
    · exact .inr ⟨L, _, hb, congrArg Host.Outcome.next he, rfl, rfl, rfl, rfl, rfl, rfl⟩

theorem selectVariant_of_build {v : Variant} {s : State} {L : Lookup} (h : build (tableOf s.params v) = .ok L) :
    selectVariant v s = ((s.markVariant v (dcOf s.params v)).replaceTable (tableOf s.params v) L).respond .ok := by
  simp [selectVariant, h]

theorem commitStaging_of_build {s : State} {L : Lookup} (ho : s.stgOvf = false) (h : build s.stg = .ok L) :
    commitStaging s = (s.replaceTable s.stg L).respond .ok := by
  simp [commitStaging, ho, h]

/-- Everything CAL_POINT can do (R153). -/
theorem execCalPoint_cases (code : Code) (freq : Freq) (s : State) :
    (s.stgCnt = 29 ∧ execCalPoint code freq s = .next (s.setOverflow.respond (.error .stagingOverflow))) ∨
    (s.stgCnt ≠ 29 ∧ execCalPoint code freq s = .next ((s.appendStaging ⟨code, freq⟩).respond .ok)) := by
  unfold execCalPoint
  by_cases h : s.stgCnt = 29
  · exact .inl ⟨h, by simp [h, raise]⟩
  · exact .inr ⟨h, by simp [h, respondOk]⟩

end Sys2Proof.Machine
end

