-- ==== Sys2Proof/Laws/PerInstr.lean ====
section
/-! SUPPORT. Statements about every command as syntax, one lemma per constructor. -/

namespace Sys2Proof.Laws.CanonicalWord

/-- R104: "The canonical word has every ignored bit zero." -/
def Statement (i : Instr) : Prop := encode i &&& ~~~(usedBits i) = 0#32

theorem wrFclo (imm8 : Byte) : Statement (.wrFclo imm8) := by revert imm8; unfold Statement; decide

theorem wrFchi (imm8 : Byte) : Statement (.wrFchi imm8) := by revert imm8; unfold Statement; decide

theorem wrResfilt (imm8 : Byte) : Statement (.wrResfilt imm8) := by revert imm8; unfold Statement; decide

theorem wrModevol (imm8 : Byte) : Statement (.wrModevol imm8) := by revert imm8; unfold Statement; decide

theorem reset : Statement .reset := by unfold Statement; decide

theorem setEnable (b : Bool) : Statement (.setEnable b) := by revert b; unfold Statement; decide

theorem selVariant (v : Variant) : Statement (.selVariant v) := by cases v <;> (unfold Statement; decide)

theorem calBegin : Statement .calBegin := by unfold Statement; decide

theorem calPoint (code : Code) (freq : Freq) : Statement (.calPoint code freq) := by
  unfold Statement
  simp only [encode, usedBits]
  ext i hi
  interval_cases i <;> simp

theorem calCommit : Statement .calCommit := by unfold Statement; decide

end Sys2Proof.Laws.CanonicalWord
end

