-- ==== Sys2Proof/Laws/Spline.lean ====
section
/-! SUPPORT. Small lemmas of the interpolator's definitions (40_spline_interpolator.md), and a sufficient condition for
`Build` to succeed that needs no evaluation of 2048 entries. -/

namespace Sys2Proof.Machine

/-! ### `validate` -/

theorem validate_eq_none_iff (T : Table) :
    validate T = none ↔ 2 ≤ T.length ∧ sortedCodes T = true ∧ coversDomain T = true := by
  simp only [validate, Config.nptsMin]
  split
  · simp; omega
  · cases sortedCodes T <;> cases coversDomain T <;> (simp; try omega)

@[simp] theorem sortedCodes_cons_cons (p q : Point) (rest : Table) :
    sortedCodes (p :: q :: rest) = (decide (p.code.toNat ≤ q.code.toNat) && sortedCodes (q :: rest)) := rfl

theorem sortedCodes_tail {p : Point} {rest : Table} (h : sortedCodes (p :: rest) = true) : sortedCodes rest = true := by
  cases rest with
  | nil => rfl
  | cons q rest => simp only [sortedCodes_cons_cons, Bool.and_eq_true] at h; exact h.2

/-! ### `runs` -/

/-- A table is not cut into nothing, and the first run begins with the first point. -/
theorem runs_cons (p : Point) (rest : Table) : ∃ r rs, runs (p :: rest) = (p :: r) :: rs := by
  induction rest generalizing p with
  | nil => exact ⟨[], [], rfl⟩
  | cons q rest ih =>
    obtain ⟨r, rs, h⟩ := ih q
    simp only [runs, h]
    split
    · exact ⟨[], (q :: r) :: rs, rfl⟩
    · exact ⟨q :: r, rs, rfl⟩

/-- The runs joined again are the table. -/
theorem flatten_runs (T : Table) : (runs T).flatten = T := by
  induction T with
  | nil => rfl
  | cons p rest ih =>
    cases rest with
    | nil => rfl
    | cons q rest =>
      obtain ⟨r, rs, h⟩ := runs_cons q rest
      rw [h] at ih
      simp only [runs, h]
      split <;> simp_all

theorem ne_nil_of_mem_runs {T r : Table} (h : r ∈ runs T) : r ≠ [] := by
  induction T generalizing r with
  | nil => simp [runs] at h
  | cons p rest ih =>
    cases rest with
    | nil => simp [runs] at h; simp [h]
    | cons q rest =>
      obtain ⟨r', rs, hr⟩ := runs_cons q rest
      rw [hr] at ih
      simp only [runs, hr] at h
      split at h
      · rcases List.mem_cons.1 h with rfl | h'
        · simp
        · exact ih h'
      · rcases List.mem_cons.1 h with rfl | h'
        · simp
        · exact ih (List.mem_cons_of_mem _ h')

/-! ### `moments` and `splineOf` -/

@[simp] theorem length_momentsFrom (c d : ℚ) (p q : Point) (rest : Table) :
    (momentsFrom c d p q rest).2.length = rest.length + 1 := by
  induction rest generalizing c d p q with
  | nil => rfl
  | cons r rest ih => simp [momentsFrom, ih]

@[simp] theorem length_moments (run : Table) : (moments run).length = run.length := by
  match run with
  | [] => rfl
  | [_] => rfl
  | p :: q :: rest => simp [moments]

@[simp] theorem length_splineOf (run : Table) : (splineOf run).length = run.length := by
  simp [splineOf]

theorem splineOf_points (run : Table) : (splineOf run).map Knot.pt = run := by
  have : (splineOf run).map Knot.pt = (List.zip run (moments run)).map Prod.fst := by
    simp [splineOf, List.zip, List.map_zipWith]
  rw [this, List.map_fst_zip]; simp

/-! ### Tables of entries -/

@[simp] theorem lookupRead_tabulate (f : ℕ → Entry) (c : Code) : lookupRead (tabulate f) c = f c.toNat := by
  simp [lookupRead, tabulate]

theorem toInt_of_fitsEntry {v : ℤ} (h : fitsEntry v = true) : (BitVec.ofInt 32 v).toInt = v := by
  simp only [fitsEntry, decide_eq_true_eq] at h
  rw [BitVec.toInt_ofInt_eq_self (by decide) (by omega) (by omega)]

/-- Everything `buildFrom` can do (R136). -/
theorem buildFrom_cases (S : List RunSpline) :
    ((∀ c < 2048, fitsEntry (entryValue S c) = true) ∧
      buildFrom S = .ok (tabulate fun c => BitVec.ofInt 32 (entryValue S c))) ∨
    ((∃ c < 2048, fitsEntry (entryValue S c) = false) ∧ buildFrom S = .error .entryOutOfRange) := by
  unfold buildFrom
  cases h : (List.range 2048).all fun c => fitsEntry (entryValue S c) with
  | true => exact .inl ⟨fun c hc => List.all_eq_true.1 h c (List.mem_range.2 hc), rfl⟩
  | false =>
    refine .inr ⟨?_, rfl⟩
    obtain ⟨c, hc, hf⟩ := List.all_eq_false.1 h
    exact ⟨c, List.mem_range.1 hc, by simpa using hf⟩

/-- Everything `build` can do (R136). -/
theorem build_cases (T : Table) :
    (∃ c, validate T = some c ∧ build T = .error c) ∨ (validate T = none ∧ build T = buildFrom (splinesOf T)) := by
  unfold build
  cases h : validate T with
  | some c => exact .inl ⟨c, rfl, rfl⟩
  | none => exact .inr ⟨rfl, rfl⟩

theorem validate_of_build_ok {T : Table} {L : Lookup} (h : build T = .ok L) : validate T = none := by
  rcases build_cases T with ⟨c, _, hb⟩ | ⟨hv, _⟩
  · rw [hb] at h; cases h
  · exact hv

/-- What a successful build stores (R136): entry `c` is `Quant(F(c))`, exactly. -/
theorem lookupRead_of_build_ok {T : Table} {L : Lookup} (h : build T = .ok L) (c : Code) :
    (lookupRead L c).toInt = entryValue (splinesOf T) c.toNat := by
  rcases build_cases T with ⟨e, _, hb⟩ | ⟨_, hb⟩
  · rw [hb] at h; cases h
  · rcases buildFrom_cases (splinesOf T) with ⟨hfit, hok⟩ | ⟨_, herr⟩
    · rw [hb, hok] at h
      rw [← Except.ok.inj h, lookupRead_tabulate, toInt_of_fitsEntry (hfit _ c.isLt)]
    · rw [hb, herr] at h; cases h

/-! ### A bound on `quant`, and builds that need no evaluation -/

theorem roundWithin_bounds {lo hi s : ℚ} {n : ℤ} (hs : 0 < s) (hlo : lo ≤ 4) (hhi : 0 ≤ hi)
    (h : roundWithin lo hi s = some n) : 0 ≤ n ∧ (n : ℚ) ≤ 9 * s + 1 := by
  rw [roundWithin_eq] at h
  split at h
  · rename_i hc
    obtain ⟨rfl⟩ : ⌊scaled lo s + 1 / 2⌋ = n := by simpa using h
    have h0 : 0 ≤ scaled hi s := by simp only [scaled, Config.scaleOverPi]; positivity
    have h1 : scaled lo s ≤ 9 * s := by simp only [scaled, Config.scaleOverPi]; nlinarith
    refine ⟨?_, by linarith [hc.1]⟩
    have : ((-1 : ℤ) : ℚ) < ((⌊scaled lo s + 1 / 2⌋ : ℤ) : ℚ) := by push_cast; linarith [hc.2]
    have := Int.cast_lt.1 this
    omega
  · cases h

theorem piLo_le_four (n : ℕ) : piLo n ≤ 4 := by
  have h := piLo_le_pi n
  have h4 := Real.pi_le_four
  have : ((piLo n : ℚ) : ℝ) ≤ ((4 : ℚ) : ℝ) := by push_cast; linarith
  exact_mod_cast this

theorem piHi_nonneg (n : ℕ) : 0 ≤ piHi n := by
  have h := pi_le_piHi n
  have h0 := Real.pi_pos
  have : ((0 : ℚ) : ℝ) ≤ ((piHi n : ℚ) : ℝ) := by push_cast; linarith
  exact_mod_cast this

theorem quantPos_bounds (s : ℚ) (hs : 0 < s) : 0 ≤ quantPos s hs ∧ ((quantPos s hs : ℤ) : ℚ) ≤ 9 * s + 1 := by
  unfold quantPos
  split
  · rename_i n h
    exact roundWithin_bounds hs (by norm_num [pi60Lo]) (by norm_num [pi60Hi]) h
  · exact roundWithin_bounds hs (piLo_le_four _) (piHi_nonneg _) (Option.some_get _).symm

/-- |`Quant(s)`| ≤ 9·|s| + 1, by `SCALE` < 9. -/
theorem abs_quant_le (s : ℚ) : |((quant s : ℤ) : ℚ)| ≤ 9 * |s| + 1 := by
  unfold quant
  split
  · rename_i h
    obtain ⟨h0, h1⟩ := quantPos_bounds s h
    have h0' : (0 : ℚ) ≤ ((quantPos s h : ℤ) : ℚ) := by exact_mod_cast h0
    rw [abs_of_nonneg h0', abs_of_pos h]; exact h1
  · split
    · rename_i h
      obtain ⟨h0, h1⟩ := quantPos_bounds (-s) h
      have h0' : (0 : ℚ) ≤ ((quantPos (-s) h : ℤ) : ℚ) := by exact_mod_cast h0
      rw [Int.cast_neg, abs_neg, abs_of_nonneg h0', ← abs_neg s, abs_of_pos h]; exact h1
    · simp; positivity

theorem fitsEntry_quant {s : ℚ} (h : |s| ≤ 200000000) : fitsEntry (quant s) = true := by
  have h1 := abs_le.1 (abs_quant_le s)
  have h2 : ((-1800000001 : ℤ) : ℚ) ≤ ((quant s : ℤ) : ℚ) := by push_cast; linarith
  have h3 : ((quant s : ℤ) : ℚ) ≤ ((1800000001 : ℤ) : ℚ) := by push_cast; linarith
  have h2' := Int.cast_le.1 h2
  have h3' := Int.cast_le.1 h3
  simp only [fitsEntry, decide_eq_true_eq]; omega

/-- Every knot's moment is 0: the run is made of straight lines (R129, R140). -/
def flatSpline (r : RunSpline) : Bool := r.all fun k => decide (k.m = 0)

theorem yOf_bounds (p : Point) : 0 ≤ yOf p ∧ yOf p ≤ 65535 := by
  have h : p.freq.toNat ≤ 65535 := by have := p.freq.isLt; omega
  exact ⟨by simp only [yOf]; positivity, by simp only [yOf]; exact_mod_cast h⟩

theorem segment_flat_bounds {a b : Knot} {x : ℚ} (ha : a.m = 0) (hb : b.m = 0) (h1 : xOf a.pt ≤ x)
    (h2 : x ≤ xOf b.pt) : |segment a b x| ≤ 65535 := by
  obtain ⟨ya0, ya1⟩ := yOf_bounds a.pt
  obtain ⟨yb0, yb1⟩ := yOf_bounds b.pt
  have ht : 0 ≤ x - xOf a.pt := by linarith
  have hu : 0 ≤ xOf b.pt - x := by linarith
  have hh : 0 ≤ xOf b.pt - xOf a.pt := by linarith
  simp only [segment, ha, hb, zero_mul, add_zero, mul_zero, zero_div, sub_zero]
  have hn : 0 ≤ yOf a.pt * (xOf b.pt - x) + yOf b.pt * (x - xOf a.pt) := by positivity
  rw [abs_of_nonneg (div_nonneg hn hh)]
  refine div_le_of_le_mul₀ hh (by norm_num) ?_
  nlinarith

theorem runValue_flat_bounds {r : RunSpline} (h : flatSpline r = true) {c : ℕ} {v : ℚ}
    (hv : runValue r c = some v) : |v| ≤ 65535 := by
  match r with
  | [] => simp [runValue] at hv
  | [k] =>
    simp only [runValue] at hv
    split at hv
    · cases hv
      obtain ⟨y0, y1⟩ := yOf_bounds k.pt
      rw [abs_of_nonneg y0]; exact y1
    · cases hv
  | a :: b :: rest =>
    simp only [flatSpline, List.all_cons, Bool.and_eq_true, decide_eq_true_eq] at h
    simp only [runValue] at hv
    split at hv
    · rename_i hc
      cases hv
      exact segment_flat_bounds h.1 h.2.1 (by simp only [xOf]; exact_mod_cast hc.1)
        (by simp only [xOf]; exact_mod_cast hc.2)
    · exact runValue_flat_bounds (r := b :: rest) (by simp [flatSpline, h.2]) hv

theorem lastRunValue_flat_bounds {S : List RunSpline} (h : S.all flatSpline = true) {c : ℕ} {v : ℚ}
    (hv : lastRunValue S c = some v) : |v| ≤ 65535 := by
  induction S with
  | nil => simp [lastRunValue] at hv
  | cons r rest ih =>
    simp only [List.all_cons, Bool.and_eq_true] at h
    simp only [lastRunValue] at hv
    split at hv
    · rename_i w hw
      cases hv
      exact ih h.2 hw
    · exact runValue_flat_bounds h.1 hv

/-- A valid table whose runs are all straight lines builds. -/
theorem build_ok_of_flat {T : Table} (hv : validate T = none) (h : (splinesOf T).all flatSpline = true) :
    build T = .ok (tabulate fun c => BitVec.ofInt 32 (entryValue (splinesOf T) c)) := by
  rcases build_cases T with ⟨c, hc, _⟩ | ⟨_, hb⟩
  · rw [hv] at hc; cases hc
  · rcases buildFrom_cases (splinesOf T) with ⟨_, hok⟩ | ⟨⟨c, _, hf⟩, _⟩
    · rw [hb, hok]
    · have : fitsEntry (entryValue (splinesOf T) c) = true := by
        refine fitsEntry_quant ?_
        cases hr : lastRunValue (splinesOf T) c with
        | none => norm_num
        | some v => simpa using (lastRunValue_flat_bounds h hr).trans (by norm_num)
      rw [this] at hf; cases hf

end Sys2Proof.Machine
end

