-- ==== Sys2Proof/Tests/Slice0.lean ====
section
/-! SUPPORT. Tests: expected values are the spec's own (95_test_vectors.md, and the examples of the rules), and for each
statement with hypotheses a theorem that shows a case meeting them. -/

namespace Sys2Proof.Tests

open Sys2Proof.Machine

/-! ### Well-formedness: each check refuses an ill-formed line (R104, R105) -/

theorem smoke_wrFclo : (AsmLine.wrFclo 256).wellFormed = false := by decide
theorem smoke_wrFchi : (AsmLine.wrFchi 256).wellFormed = false := by decide
theorem smoke_wrResfilt : (AsmLine.wrResfilt 256).wellFormed = false := by decide
theorem smoke_wrModevol : (AsmLine.wrModevol 256).wellFormed = false := by decide
theorem smoke_setEnable : (AsmLine.setEnable 2).wellFormed = false := by decide
theorem smoke_calPoint_code : (AsmLine.calPoint 2048 0).wellFormed = false := by decide
theorem smoke_calPoint_freq : (AsmLine.calPoint 0 65536).wellFormed = false := by decide
theorem smoke_setFc : (AsmLine.setFc 2048).wellFormed = false := by decide
theorem smoke_loadCal_code : (AsmLine.loadCal [(0, 0), (2048, 0)]).wellFormed = false := by decide
theorem smoke_loadCal_freq : (AsmLine.loadCal [(0, 65536)]).wellFormed = false := by decide
theorem smoke_loadCal_empty : (AsmLine.loadCal []).wellFormed = false := by decide

/-! ### Decoding (95_test_vectors.md 2.1: words written out from R92 and R93) -/

theorem test_decode_X1 : decode 0x000000FD#32 = .ok (.wrFclo 0xFD) := by decide
theorem test_decode_X2 : decode 0x10000080#32 = .ok (.wrFchi 0x80) := by decide
theorem test_decode_X3 : decode 0x2000008B#32 = .ok (.wrResfilt 0x8B) := by decide
theorem test_decode_X4 : decode 0x3000009F#32 = .ok (.wrModevol 0x9F) := by decide
theorem test_decode_X5 : decode 0x40000000#32 = .ok .reset := by decide
theorem test_decode_X6 : decode 0x50000001#32 = .ok (.setEnable true) := by decide
theorem test_decode_X7 : decode 0x60000000#32 = .ok (.selVariant .A) ∧ decode 0x60000001#32 = .ok (.selVariant .B) := by
  decide
theorem test_decode_X8 : decode 0x70000000#32 = .ok .calBegin := by decide
theorem test_decode_X9 : decode 0x840003E8#32 = .ok (.calPoint 1024 1000) := by decide
theorem test_decode_X10 : decode 0x87FFFFFF#32 = .ok (.calPoint 2047 65535) := by decide
theorem test_decode_X11 : decode 0x90000000#32 = .ok .calCommit := by decide
theorem test_decode_X15 : decode 0x5FFFFFFE#32 = .ok (.setEnable false) := by decide
theorem test_decode_X16 : decode 0x6000FFFF#32 = .ok (.selVariant .B) := by decide
theorem test_decode_X17 : decode 0xA0000000#32 = .error .illegalCommand ∧
    decode 0xFFFFFFFF#32 = .error .illegalCommand := by decide
theorem test_decodeTableWord : decodeTableWord 32 0x87FF01F4 = some (.calPoint 2047 500) := by decide

/-- R104's canonical words. -/
theorem test_encode : encode (.calPoint 1024 1000) = 0x840003E8#32 ∧ encode (.selVariant .B) = 0x60000001#32 ∧
    encode (.wrFclo 0xFD) = 0x000000FD#32 := by decide

/-! ### The assembler (R104, R105; P1 steps 6, 7) -/

theorem test_readLine : readLine "CAL_POINT 1024, 0x3E8".toList = some (.calPoint 1024 1000) := by decide +kernel
theorem test_lineText :
    lineText (.loadCal [(0, 0), (2047, 2047)]) = "LOAD_CAL (0,0) (2047,2047)".toList := by decide +kernel
theorem test_assemble_setFc : assemble (.setFc 1024) = some [0x00000000#32, 0x10000080#32] := by decide
theorem test_assemble_loadCal : assemble (.loadCal [(0, 0), (2047, 2047)]) =
    some [0x70000000#32, 0x80000000#32, 0x87FF07FF#32, 0x90000000#32] := by decide

/-! ### Operands (examples of R171 to R174; W2, W4, W5, W8, W12) -/

theorem test_fcWithLow : fcWithLow 0x400 0xFD = 0x405 ∧ fcWithLow 0x7FF 0x00 = 0x7F8 ∧ fcWithLow 0x2AB 0xF8 = 0x2A8 := by
  decide
theorem test_fcWithHigh : fcWithHigh 0x005 0x80 = 0x405 ∧ fcWithHigh 0x007 0xFF = 0x7FF ∧ fcWithHigh 0x7FF 0x00 = 7 := by
  decide
theorem test_resfilt_byte : resOfByte 0x8B = 8 ∧ filtOfByte 0x8B = 0b1011 := by decide
theorem test_modevol_byte : v3offOfByte 0x5A = false ∧ modeOfByte 0x5A = 0b101 ∧ volOfByte 0x5A = 10 := by decide

/-! ### The interpolator (95_test_vectors.md 2.3 to 2.7) -/

def tableT2 : Table := [⟨0, 0⟩, ⟨1024, 1000⟩, ⟨2047, 0⟩]
def tableT3 : Table := [⟨0, 100⟩, ⟨1000, 300⟩, ⟨1000, 200⟩, ⟨2047, 500⟩]
def tableT6 : Table := [⟨0, 50⟩, ⟨0, 60⟩, ⟨0, 70⟩, ⟨2047, 70⟩]
def tableT7 : Table := [⟨0, 0⟩, ⟨100, 0⟩, ⟨200, 1000⟩, ⟨2047, 1000⟩]

theorem test_quant : quant 1 = 7 ∧ quant 220 = 1449 ∧ quant 18000 = 118591 ∧ quant 65535 = 431771 ∧
    quant (-748875 / 7738) = -638 := by decide +kernel
theorem test_validate_E3_E4 : validate [⟨10, 1⟩] = some .tooFewPoints ∧
    validate [⟨0, 5⟩, ⟨0, 6⟩] = some .domainNotCovered := by decide
theorem test_validate_E8_E9 : validate [⟨0, 1⟩, ⟨100, 5⟩, ⟨50, 7⟩, ⟨2000, 9⟩] = some .unsorted ∧
    validate [⟨2047, 1⟩, ⟨0, 1⟩] = some .unsorted := by decide
theorem test_validate_E13 : validate [⟨0, 1⟩, ⟨0, 2⟩, ⟨2047, 3⟩, ⟨2047, 4⟩] = none := by decide
theorem test_runs_T6 : runs tableT6 = [[⟨0, 50⟩], [⟨0, 60⟩], [⟨0, 70⟩, ⟨2047, 70⟩]] := by decide
theorem test_moments_T2 : moments tableT2 = [0, -125 / 43648, 0] := by decide +kernel
theorem test_moments_T7 : moments tableT7 = [0, 5991 / 38690, -75 / 3869, 0] := by decide +kernel
theorem test_frequency_T2 : frequencyAt tableT2 2 = some (32746625 / 11173888) := by decide +kernel
theorem test_frequency_T7 : frequencyAt tableT7 50 = some (-748875 / 7738) := by decide +kernel
theorem test_entries_T2 : entryValue (splinesOf tableT2) 512 = 4531 ∧ entryValue (splinesOf tableT2) 2046 = 10 := by
  decide +kernel
theorem test_entries_T3 : entryValue (splinesOf tableT3) 999 = 1975 ∧ entryValue (splinesOf tableT3) 1000 = 1318 := by
  decide +kernel
theorem test_entries_T6 : entryValue (splinesOf tableT6) 0 = 461 := by decide +kernel
theorem test_entries_T7 : entryValue (splinesOf tableT7) 56 = -654 ∧ entryValue (splinesOf tableT7) 978 = 34538 := by
  decide +kernel

/-- The candidate tables of G3 (not normative); entries of vectors G-A and G-B. -/
def candidateA : Table :=
  [⟨0, 220⟩, ⟨128, 230⟩, ⟨256, 250⟩, ⟨384, 300⟩, ⟨512, 420⟩, ⟨640, 780⟩, ⟨768, 1600⟩, ⟨832, 2300⟩, ⟨896, 3200⟩,
    ⟨960, 4300⟩, ⟨992, 5000⟩, ⟨1008, 5400⟩, ⟨1016, 5700⟩, ⟨1023, 6000⟩, ⟨1023, 6000⟩, ⟨1024, 4600⟩, ⟨1024, 4600⟩,
    ⟨1032, 4800⟩, ⟨1056, 5300⟩, ⟨1088, 6000⟩, ⟨1120, 6600⟩, ⟨1152, 7200⟩, ⟨1280, 9500⟩, ⟨1408, 12000⟩,
    ⟨1536, 14500⟩, ⟨1664, 16000⟩, ⟨1792, 17100⟩, ⟨1920, 17700⟩, ⟨2047, 18000⟩]
theorem test_entries_GA : entryValue (splinesOf candidateA) 1000 = 34114 ∧
    entryValue (splinesOf candidateA) 1023 = 39530 ∧ entryValue (splinesOf candidateA) 1031 = 31466 := by
  decide +kernel

/-- All sixteen values (R193). -/
theorem test_qrom : (List.range 16).map (fun r => (qromRead (BitVec.ofNat 4 r)).toNat) =
    [1448, 1324, 1219, 1129, 1052, 984, 925, 872, 826, 783, 745, 711, 679, 651, 624, 600] := by decide

/-- R200's codes. -/
theorem test_codes : Response.ok.code = 0 ∧ (Response.error .tooFewPoints).code = 1 ∧
    (Response.error .domainNotCovered).code = 2 ∧ (Response.error .unsorted).code = 3 ∧
    (Response.error .stagingOverflow).code = 4 ∧ (Response.error .entryOutOfRange).code = 5 := by decide

/-! ### Commands on small states -/

/-- A conforming `CAL_A` of six points, and a two-point `CAL_B` (T1). -/
def tableA : Table := [⟨0, 220⟩, ⟨1023, 6000⟩, ⟨1023, 6000⟩, ⟨1024, 4600⟩, ⟨1024, 4600⟩, ⟨2047, 18000⟩]
def tableB : Table := [⟨0, 0⟩, ⟨2047, 2047⟩]

/-- The lookup of a table whose runs are straight lines. -/
def lineLookup (T : Table) : Lookup := tabulate fun c => BitVec.ofInt 32 (entryValue (splinesOf T) c)

def par : Params := { calA := tableA, calB := tableB, dcA := BitVec.ofInt 32 (-454) }

/-- Power-on of that instance. -/
def s0 : State := State.powerOn par false

/-- The same with a table committed. -/
def s1 : State := s0.replaceTable tableB (lineLookup tableB)

/-- The same with a full staging table: the 28 points (i, 5) and (2047, 5). -/
def fullTable : Table := (List.range 28).map (fun i => ⟨BitVec.ofNat 11 i, 5⟩) ++ [⟨2047, 5⟩]
def s29 : State := { s0 with stg := fullTable }

/-- What a field holds after a command. -/
def after {α : Type} (r : Result) (f : State → α) : Option α :=
  match r with
  | .next t => some (f t)
  | _ => none

theorem build_tableA : build tableA = .ok (lineLookup tableA) :=
  build_ok_of_flat (by decide) (by decide +kernel)

theorem build_tableB : build tableB = .ok (lineLookup tableB) :=
  build_ok_of_flat (by decide) (by decide +kernel)

theorem build_fullTable : build fullTable = .ok (lineLookup fullTable) :=
  build_ok_of_flat (by decide) (by decide +kernel)

theorem test_wrFclo : after (exec (.wrFclo 0xFD) { s0 with regs := { s0.regs with fc := 0x400 } })
    (fun t => (t.regs.fc, t.w0, t.oResp)) = some (0x405, none, some 0) := by decide
theorem test_wrFchi : after (exec (.wrFchi 0x80) { s0 with regs := { s0.regs with fc := 0x005 } })
    (fun t => (t.regs.fc, t.w0)) = some (0x405, none) := by decide
theorem test_wrResfilt : after (exec (.wrResfilt 0x8B) s0) (fun t => (t.regs.res, t.regs.filt, t.q1024)) =
    some (8, 0b1011, 826) := by decide
theorem test_wrModevol : after (exec (.wrModevol 0x9F) s0) (fun t => (t.regs.v3off, t.regs.mode, t.regs.vol)) =
    some (true, 0b001, 15) := by decide
theorem test_reset : after (exec .reset { s0 with enabled := true, q1024 := 826 })
    (fun t => (t.q1024, t.enabled, t.stateClears)) = some (1448, true, 2) := by decide
theorem test_setEnable : after (exec (.setEnable true) { s0 with enabled := true }) (fun t => t.enabled) = some true := by
  decide
theorem test_calBegin : after (exec .calBegin { s0 with stg := tableB, stgOvf := true })
    (fun t => (t.stgCnt, t.stgOvf)) = some (0, false) := by decide
theorem test_calPoint : after (exec (.calPoint 1024 1000) s0) (fun t => t.stg) = some [⟨1024, 1000⟩] := by decide
/-- E10. -/
theorem test_calPoint_overflow : after (exec (.calPoint 0 0) s29) (fun t => (t.stgCnt, t.stgOvf, t.oResp)) =
    some (29, true, some 4) := by decide
/-- E2: one point; E12: overflow first. -/
theorem test_calCommit_errors : after (exec .calCommit { s0 with stg := [⟨0, 5⟩] }) (fun t => t.oResp) = some (some 1) ∧
    after (exec .calCommit { s0 with stg := [⟨0, 5⟩], stgOvf := true }) (fun t => t.oResp) = some (some 4) := by decide
/-- P1 steps 4 to 7 in one command: T1 committed with `fc` = 1024. -/
theorem test_calCommit_w0 :
    ∃ t, exec .calCommit { s0 with stg := tableB, regs := { s0.regs with fc := 1024 } } = .next t ∧
      t.w0 = some 6747 := by
  refine ⟨_, congrArg Host.Outcome.next (commitStaging_of_build rfl build_tableB), ?_⟩
  rw [State.respond_w0, State.replaceTable_w0, lineLookup, lookupRead_tabulate]
  exact congrArg some (by decide +kernel)
/-- V1. -/
theorem test_selVariant_A :
    ∃ t, exec (.selVariant .A) s0 = .next t ∧ t.w0 = some 1449 ∧ t.dc = some (BitVec.ofInt 32 (-454)) := by
  refine ⟨_, congrArg Host.Outcome.next (selectVariant_of_build (v := .A) (s := s0) build_tableA), ?_, rfl⟩
  rw [State.respond_w0, State.replaceTable_w0, lineLookup, lookupRead_tabulate]
  exact congrArg some (by decide +kernel)
/-- The illegal word of P4 step 8. -/
theorem test_step_illegal : after (step (s0.withFetchWord 32 0xA0000000)) (fun t => (t.oResp, t.stgCnt, t.cmds)) =
    some (some 15, 0, []) := by decide
theorem test_step_from_reset (w : ℕ) : (State.reset.withFetchWord 32 w).cmds = [BitVec.ofNat 32 (w % 2 ^ 32)] := rfl
theorem test_step_calPoint : after (step (State.reset.withFetchWord 32 0x840003E8)) (fun t => t.stg) =
    some [⟨1024, 1000⟩] := by decide
theorem test_rangeCheck : fitsEntry 2147483647 = true ∧ fitsEntry 2147483648 = false ∧
    fitsEntry (-2147483648) = true ∧ fitsEntry (-2147483649) = false := by decide
theorem test_ports : (s0.ports.oW0, s0.ports.oW0Valid, s0.ports.oQ1024, s0.ports.oDcValid) = (none, false, 1448, false) := by
  decide

/-! ### Witnesses: for each statement with hypotheses, a case that meets them, one per clause -/

theorem wit_DisassembleThenAssemble : decode 0x8C0003E8#32 = .ok (.calPoint 1024 1000) := by decide

theorem wit_LineTextReadsBack : (AsmLine.loadCal [(0, 0), (2047, 65535)]).wellFormed = true := by decide

theorem wit_IgnoredBitsHaveNoEffect : decode 0x000000FD#32 = .ok (.wrFclo 0xFD) ∧
    0x000000FD#32 &&& usedBits (.wrFclo 0xFD) = 0x0FFFFFFD#32 &&& usedBits (.wrFclo 0xFD) ∧
    (0xFF : Byte) &&& 7 = 0x07 &&& 7 := by decide

/-- The two sides of the boundary: `op` 10 and `op` 9. -/
theorem wit_IllegalOpcodeAnswersFifteen : (s0.present 0xA0000000#32).cmds = 0xA0000000#32 :: [] ∧
    10 ≤ (0xA0000000#32).toNat / 2 ^ 28 ∧ ¬10 ≤ (0x9FFFFFFF#32).toNat / 2 ^ 28 ∧
    decode 0x9FFFFFFF#32 = .ok .calCommit := by decide

theorem wit_StepRunsDecodedCommand : (s0.present 0x70000000#32).cmds = 0x70000000#32 :: [] ∧
    decode 0x70000000#32 = .ok .calBegin := by decide

theorem wit_NothingHappensBetweenCommands : State.reset.cmds = [] := rfl

theorem wit_OneResponsePerCommand : (s0.present 0x40000000#32).cmds = 0x40000000#32 :: [] := rfl

theorem wit_HalfWritesCommute : s1.tblValid = true ∧ s1.lookup = some (lineLookup tableB) := ⟨rfl, rfl⟩

theorem wit_SetFcSetsCode : (2047 < 2048) ∧ assemble (.setFc 2047) = some [0x00000007#32, 0x100000FF#32] ∧
    ({ s0 with cmds := [0x00000007#32, 0x100000FF#32] } : State).cmds = [0x00000007#32, 0x100000FF#32] ++ [] := by
  decide

/-- An instance whose built-in tables are empty: they do not build. -/
def sBad : State := State.powerOn { calA := [], calB := [], dcA := 0 } false

theorem wit_SelVariantResult : build s0.params.calA = .ok (lineLookup tableA) ∧
    build s0.params.calB = .ok (lineLookup tableB) ∧ build sBad.params.calA = .error .tooFewPoints ∧
    build sBad.params.calB = .error .tooFewPoints :=
  ⟨build_tableA, build_tableB, rfl, rfl⟩

theorem conformsA_tableA : ConformsA tableA where
  fits := by decide
  valid := by decide
  first_freq := by decide
  last_freq := by decide
  pairs := by decide
  jump_down := ⟨6000, 4600, by decide, by decide, by decide⟩
  builds := ⟨_, build_tableA⟩

theorem conformsB_tableB : ConformsB tableB where
  fits := by decide
  valid := by decide
  no_jump := by decide
  builds := ⟨_, build_tableB⟩

theorem wit_SelVariantOnConformingTables : Conforming s0.params ∧ s0.regs.fc = 0 ∧
    Conforming ({ s0 with regs := { s0.regs with fc := 2047 } } : State).params :=
  ⟨⟨conformsA_tableA, conformsB_tableB, by decide⟩, rfl, ⟨conformsA_tableA, conformsB_tableB, by decide⟩⟩

theorem wit_SelVariantIdempotent : ∃ t, exec (.selVariant .B) s0 = .next t := ⟨_, rfl⟩

/-- 28 points and 29 points: the two sides of the boundary. -/
theorem wit_CalPointResult : ({ s0 with stg := fullTable.tail } : State).stgCnt = 28 ∧ s29.stgCnt = 29 := by decide

theorem wit_OverflowIsSticky : s29.stgCnt = 29 ∧ (∃ t, exec (.calPoint 0 0) s29 = .next t) ∧
    ({ s29 with stgOvf := true } : State).stgOvf = true ∧
    (∃ t, exec (.wrFclo 0) { s29 with stgOvf := true } = .next t) :=
  ⟨by decide, ⟨_, rfl⟩, rfl, ⟨_, rfl⟩⟩

theorem wit_CalCommitResult : ({ s0 with stgOvf := true } : State).stgOvf = true ∧
    (s0.stgOvf = false ∧ build s0.stg = .error .tooFewPoints) ∧
    (s29.stgOvf = false ∧ build s29.stg = .ok (lineLookup fullTable)) :=
  ⟨rfl, ⟨rfl, rfl⟩, ⟨rfl, build_fullTable⟩⟩

/-- `fullTable` as it is written in `LOAD_CAL`: 29 points, the most a table holds. -/
def fullPoints : List (ℕ × ℕ) := (List.range 28).map (fun i => (i, 5)) ++ [(2047, 5)]

theorem wit_LoadCalInstallsTable : fullPoints.length ≤ 29 ∧
    assemble (.loadCal fullPoints) = some ((expand (.loadCal fullPoints)).map encode) ∧
    ({ s0 with cmds := (expand (.loadCal fullPoints)).map encode } : State).cmds =
      (expand (.loadCal fullPoints)).map encode ++ [] ∧
    build (fullPoints.map fun p => ⟨BitVec.ofNat 11 p.1, BitVec.ofNat 16 p.2⟩) = .ok (lineLookup fullTable) := by
  have h : fullPoints.map (fun p => (⟨BitVec.ofNat 11 p.1, BitVec.ofNat 16 p.2⟩ : Point)) = fullTable := by decide
  refine ⟨by decide, if_pos (by decide), by simp, ?_⟩
  rw [h]; exact build_fullTable

/-- An illegal word, and an overflowing CAL_POINT. -/
theorem wit_ErrorsChangeNoState :
    (∃ t, step (s0.present 0xA0000000#32) = .next t ∧
      t.trace = (s0.present 0xA0000000#32).trace ++ [.response (.error .illegalCommand)]) ∧
    (∃ t, step (s29.present 0x80000000#32) = .next t ∧
      t.trace = (s29.present 0x80000000#32).trace ++ [.response (.error .stagingOverflow)]) :=
  ⟨⟨_, rfl, rfl⟩, ⟨_, rfl, rfl⟩⟩

theorem wit_OnlyNamedCommandsWrite : ∃ t, exec .calBegin s0 = .next t := ⟨_, rfl⟩

theorem wit_ValidityIsForEver : ∃ t, step (s1.present 0x40000000#32) = .next t ∧ s1.tblValid = true ∧
    ({ s0 with varValid := true } : State).varValid = true := ⟨_, rfl, rfl, rfl⟩

theorem wit_ShownFieldsComputeNothing : SameButShown s1 { s1 with enabled := true, varValid := true } ∧
    s1 ≠ { s1 with enabled := true, varValid := true } :=
  ⟨⟨rfl, rfl, rfl, rfl, rfl, rfl, rfl, rfl, rfl, rfl, rfl, rfl⟩, fun h => by
    have := congrArg State.enabled h; exact absurd this (by decide)⟩

/-- A state with a table meets the invariants. -/
theorem inv_s1 : s1.Inv where
  table_present _ := ⟨tableB, lineLookup tableB, rfl, rfl, by decide, build_tableB, rfl⟩
  table_absent h := absurd h (by simp [s1])
  q1024_derived := by decide
  variant_present h := absurd h (by simp [s1, s0])
  variant_absent _ := ⟨rfl, rfl⟩
  variant_has_table _ := rfl
  staging_fits := by decide
  overflow_full h := absurd h (by simp [s1, s0])
  active_fits T h := by
    obtain rfl : tableB = T := by simpa [s1] using h
    exact .inr (.inr rfl)

theorem inv_s0 : s0.Inv where
  table_present h := absurd h (by simp [s0])
  table_absent _ := ⟨rfl, rfl, rfl⟩
  q1024_derived := by decide
  variant_present h := absurd h (by simp [s0])
  variant_absent _ := ⟨rfl, rfl⟩
  variant_has_table h := absurd h (by simp [s0])
  staging_fits := by decide
  overflow_full h := absurd h (by simp [s0])
  active_fits T h := absurd h (by simp [s0])

/-- A state of another history with `tableB` staged. -/
def s2 : State := { sBad with stg := tableB, regs := { s0.regs with res := 8 }, enabled := true }

/-- SEL_VARIANT B and CAL_COMMIT rebuild from `tableB` in two states of different history, and it builds. -/
theorem wit_CoefficientsHaveNoHistory_rebuild : RebuildsFrom (.selVariant .B) s0 tableB ∧
    RebuildsFrom .calCommit s2 tableB ∧ build tableB = .ok (lineLookup tableB) ∧ s0.regs.fc = s2.regs.fc ∧
    s0.params ≠ s2.params :=
  ⟨.inl ⟨.B, rfl, rfl⟩, .inr ⟨rfl, rfl, rfl⟩, build_tableB, rfl, fun h => absurd (congrArg Params.calA h) (by decide)⟩

/-- Two different writes that end at code 0 with the same table. -/
theorem wit_CoefficientsHaveNoHistory_w0 : ∃ t t', rederivesW0 (.wrFclo 0) = true ∧ rederivesW0 (.wrFchi 0) = true ∧
    exec (.wrFclo 0) { s1 with regs := { s1.regs with fc := 5 } } = .next t ∧ exec (.wrFchi 0) s1 = .next t' ∧
    t.oResp = some 0 ∧ t'.oResp = some 0 ∧ t.tblValid = t'.tblValid ∧ t.lookup = t'.lookup ∧
    t.regs.fc = t'.regs.fc :=
  ⟨_, _, rfl, rfl, rfl, rfl, rfl, rfl, rfl, rfl, rfl⟩

/-- WR_RESFILT to code 0 and RESET. -/
theorem wit_CoefficientsHaveNoHistory_q : ∃ t t', rederivesQ (.wrResfilt 0x0B) = true ∧ rederivesQ .reset = true ∧
    exec (.wrResfilt 0x0B) s2 = .next t ∧ exec .reset s0 = .next t' ∧ t.regs.res = t'.regs.res :=
  ⟨_, _, rfl, rfl, rfl, rfl, rfl⟩

theorem wit_StepKeepsTheInvariants : s1.Inv ∧ ∃ t, step s1 = .next t := ⟨inv_s1, _, rfl⟩

theorem wit_PortsShowTheState : s1.Inv ∧ s0.Inv ∧ s0.tblValid = false ∧ s0.varValid = false :=
  ⟨inv_s1, inv_s0, rfl, rfl⟩

/-- Each clause at a table of its own. -/
theorem wit_ValidateReportsFirstCause :
    ([⟨0, 5⟩] : Table).length < 2 ∧
    (∃ i, ∃ h : i + 1 < ([⟨2047, 1⟩, ⟨0, 1⟩] : Table).length,
      ([⟨2047, 1⟩, ⟨0, 1⟩] : Table)[i + 1].code.toNat < ([⟨2047, 1⟩, ⟨0, 1⟩] : Table)[i].code.toNat) ∧
    (([⟨0, 1⟩, ⟨2046, 2⟩] : Table).getLast?.map Point.code ≠ some 2047) ∧
    (tableB.head?.map Point.code = some 0 ∧ tableB.getLast?.map Point.code = some 2047) :=
  ⟨by decide, ⟨0, by decide, by decide⟩, by decide, by decide⟩

/-- A table with a cut, and a run of two points. -/
theorem wit_RunsCutAtEqualCodes : sortedCodes tableT3 = true ∧ 0 + 1 < (runs tableT3).length ∧
    ∃ r ∈ runs tableT3, 0 + 1 < r.length := by decide

/-- A table with a repeated code: runs 0 and 1 share code 1000. -/
theorem wit_RunsCoverTheDomain : validate tableT3 = none ∧ sortedCodes tableT3 = true ∧
    runs tableT3 = [[⟨0, 100⟩, ⟨1000, 300⟩], [⟨1000, 200⟩, ⟨2047, 500⟩]] := by decide

theorem wit_MomentsSolveTheSystem : 2 ≤ tableT7.length ∧
    (tableT7.Pairwise fun p q => p.code.toNat < q.code.toNat) := by decide

theorem wit_SplineIsNaturalCubic : 2 ≤ tableT2.length ∧
    (tableT2.Pairwise fun p q => p.code.toNat < q.code.toNat) ∧ 2 < (splineOf tableT2).length ∧
    tableT2.head? = some ⟨0, 0⟩ ∧ tableT2.getLast? = some ⟨2047, 0⟩ := by decide +kernel

theorem wit_SegmentIsTheMomentFormula :
    ((⟨⟨0, 5⟩, 0⟩ : Knot).pt.code.toNat < (⟨⟨1, 6⟩, 0⟩ : Knot).pt.code.toNat) ∧
    (([⟨⟨0, 5⟩, 0⟩, ⟨⟨1, 6⟩, 0⟩, ⟨⟨2047, 7⟩, 0⟩] : RunSpline).Pairwise fun a b => a.pt.code.toNat < b.pt.code.toNat) := by
  decide

theorem wit_FrequencyAtPointIsLastOfItsCode : validate tableT6 = none ∧ lastFreqAt tableT6 0 = some 70 ∧
    lastFreqAt tableT6 2047 = some 70 := by decide

theorem wit_BuildStoresQuantisedFrequencies : validate [⟨0, 5⟩] = some .tooFewPoints ∧ validate tableT7 = none := by
  decide

theorem wit_FrequencyIsBounded : validate tableT7 = none ∧
    frequencyAt tableT7 (50 : Code).toNat = some (-748875 / 7738) := by decide +kernel

theorem wit_VariantADropsAtCode1024 : ConformsA tableA ∧ build tableA = .ok (lineLookup tableA) :=
  ⟨conformsA_tableA, build_tableA⟩

end Sys2Proof.Tests
end

section
/-! ### The scope of a step (00_scope.md) -/

namespace Sys2Proof.Machine

/-- The idle branch of `step`: with nothing to accept, the state stays as it is. -/
theorem step_of_accept_none {s : State} (h : s.accept = none) : step s = .next s := by
  simp only [step, h]

/-- Settles O8: an empty command port offers no word to accept, and without one the step is idle. -/
theorem nothingHappensBetweenCommands : Obligations.NothingHappensBetweenCommands := by
  intro s hcmds
  exact step_of_accept_none (accept_of_nil hcmds)

end Sys2Proof.Machine
end

section
/-! ### What a command and a step can do (00_scope.md R9, 60_exceptions.md R200) -/

namespace Sys2Proof.Machine

/-- Everything a command can do: from `s`, the command `i` reaches `u` and then gives its one response `r` (R200). One
constructor per outcome; the commands that can fail have more than one. -/
inductive CommandEffect (s : State) : Instr → State → Response → Prop
  | wrFclo (b : Byte) : CommandEffect s (.wrFclo b) (s.writeFc (fcWithLow s.regs.fc b)).rederiveW0 .ok
  | wrFchi (b : Byte) : CommandEffect s (.wrFchi b) (s.writeFc (fcWithHigh s.regs.fc b)).rederiveW0 .ok
  | wrResfilt (b : Byte) :
    CommandEffect s (.wrResfilt b) (s.writeResFilt (resOfByte b) (filtOfByte b)).rederiveQ .ok
  | wrModevol (b : Byte) :
    CommandEffect s (.wrModevol b) (s.writeModeVol (v3offOfByte b) (modeOfByte b) (volOfByte b)) .ok
  | reset : CommandEffect s .reset s.clearRegs.emitStateClear.rederiveW0.rederiveQ .ok
  | setEnable (b : Bool) : CommandEffect s (.setEnable b) (s.writeEnabled b) .ok
  | variantFails (v : Variant) (c : Cause) (hb : build (tableOf s.params v) = .error c) :
    CommandEffect s (.selVariant v) s (.error c)
  | variantSelected (v : Variant) (L : Lookup) (hb : build (tableOf s.params v) = .ok L) :
    CommandEffect s (.selVariant v)
      ((s.markVariant v (dcOf s.params v)).replaceTable (tableOf s.params v) L) .ok
  | calBegin : CommandEffect s .calBegin s.emptyStaging .ok
  | pointDropped (c : Code) (f : Freq) (hfull : s.stgCnt = 29) :
    CommandEffect s (.calPoint c f) s.setOverflow (.error .stagingOverflow)
  | pointStaged (c : Code) (f : Freq) (hroom : s.stgCnt ≠ 29) :
    CommandEffect s (.calPoint c f) (s.appendStaging ⟨c, f⟩) .ok
  | commitOverflowed (ho : s.stgOvf = true) : CommandEffect s .calCommit s (.error .stagingOverflow)
  | commitFails (c : Cause) (ho : s.stgOvf = false) (hb : build s.stg = .error c) :
    CommandEffect s .calCommit s (.error c)
  | committed (L : Lookup) (ho : s.stgOvf = false) (hb : build s.stg = .ok L) :
    CommandEffect s .calCommit (s.replaceTable s.stg L) .ok

variable {s t u : State} {i : Instr} {r : Response}

/-- The outcomes leave no case out: every command has an effect in every state. -/
theorem exists_commandEffect (i : Instr) (s : State) : ∃ u r, CommandEffect s i u r := by
  cases i with
  | wrFclo b => exact ⟨_, _, .wrFclo b⟩
  | wrFchi b => exact ⟨_, _, .wrFchi b⟩
  | wrResfilt b => exact ⟨_, _, .wrResfilt b⟩
  | wrModevol b => exact ⟨_, _, .wrModevol b⟩
  | reset => exact ⟨_, _, .reset⟩
  | setEnable b => exact ⟨_, _, .setEnable b⟩
  | selVariant v =>
    cases hb : build (tableOf s.params v) with
    | error c => exact ⟨_, _, .variantFails v c hb⟩
    | ok L => exact ⟨_, _, .variantSelected v L hb⟩
  | calBegin => exact ⟨_, _, .calBegin⟩
  | calPoint c f =>
    by_cases hfull : s.stgCnt = 29
    · exact ⟨_, _, .pointDropped c f hfull⟩
    · exact ⟨_, _, .pointStaged c f hfull⟩
  | calCommit =>
    cases ho : s.stgOvf with
    | true => exact ⟨_, _, .commitOverflowed ho⟩
    | false =>
      cases hb : build s.stg with
      | error c => exact ⟨_, _, .commitFails c ho hb⟩
      | ok L => exact ⟨_, _, .committed L ho hb⟩

/-- `exec` answers the effect with its response. -/
theorem exec_of_commandEffect (h : CommandEffect s i u r) : exec i s = .next (u.respond r) := by
  cases h with
  | variantFails v c hb => simp [exec, execSelVariant, selectVariant, hb]
  | variantSelected v L hb => exact congrArg Host.Outcome.next (selectVariant_of_build hb)
  | pointDropped c f hfull => simp [exec, execCalPoint, hfull, raise]
  | pointStaged c f hroom => simp [exec, execCalPoint, hroom, respondOk]
  | commitOverflowed ho => simp [exec, execCalCommit, commitStaging, ho]
  | commitFails c ho hb => simp [exec, execCalCommit, commitStaging, ho, hb]
  | committed L ho hb => exact congrArg Host.Outcome.next (commitStaging_of_build ho hb)
  | _ => rfl

theorem commandEffect_of_exec (h : exec i s = .next t) : ∃ u r, CommandEffect s i u r ∧ t = u.respond r := by
  obtain ⟨u, r, he⟩ := exists_commandEffect i s
  exact ⟨u, r, he, Host.Outcome.next.inj (h.symm.trans (exec_of_commandEffect he))⟩

/-- Everything a step can do: nothing is presented, an illegal word is answered (R102), or a command runs (R90). -/
inductive StepEffect (s : State) : State → Prop
  | idle (hcmds : s.cmds = []) : StepEffect s s
  | illegal (w : Word) (rest : List Word) (hcmds : s.cmds = w :: rest) (hd : decode w = .error .illegalCommand) :
    StepEffect s (({ s with cmds := rest } : State).respond (.error .illegalCommand))
  | command (w : Word) (rest : List Word) (i : Instr) (u : State) (r : Response) (hcmds : s.cmds = w :: rest)
    (hd : decode w = .ok i) (he : CommandEffect { s with cmds := rest } i u r) : StepEffect s (u.respond r)

theorem step_of_stepEffect (h : StepEffect s t) : step s = .next t := by
  cases h with
  | idle hcmds => exact step_of_accept_none (accept_of_nil hcmds)
  | illegal w rest hcmds hd => simp [step, accept_of_cons hcmds, hd, raise]
  | command w rest i u r hcmds hd he => simp [step, accept_of_cons hcmds, hd, exec_of_commandEffect he]

theorem exists_stepEffect (s : State) : ∃ t, StepEffect s t := by
  cases hcmds : s.cmds with
  | nil => exact ⟨s, .idle hcmds⟩
  | cons w rest =>
    cases hd : decode w with
    | error e => exact ⟨_, .illegal w rest hcmds hd⟩
    | ok i =>
      obtain ⟨u, r, he⟩ := exists_commandEffect i { s with cmds := rest }
      exact ⟨_, .command w rest i u r hcmds hd he⟩

theorem StepEffect.unique {t' : State} (h : StepEffect s t) (h' : StepEffect s t') : t = t' :=
  Host.Outcome.next.inj ((step_of_stepEffect h).symm.trans (step_of_stepEffect h'))

theorem stepEffect_of_step (h : step s = .next t) : StepEffect s t := by
  obtain ⟨t', ht'⟩ := exists_stepEffect s
  obtain rfl := Host.Outcome.next.inj (h.symm.trans (step_of_stepEffect ht'))
  exact ht'

end Sys2Proof.Machine
end

section
/-! ### The fields the block only stores and shows (10_state.md R25, R26, R28) -/

namespace Sys2Proof.Machine

/-- `s` with the fields that the block only stores and shows blanked out. -/
def State.hideShown (s : State) : State :=
  { s with
    regs := { FilterRegisters.zero with fc := s.regs.fc, res := s.regs.res }
    enabled := false, variant := none, varValid := false, dc := none }

/-- Agreeing on everything but the shown fields is being equal once they are blanked out. -/
theorem sameButShown_iff_hideShown_eq {s t : State} : SameButShown s t ↔ s.hideShown = t.hideShown := by
  constructor
  · intro h
    simp only [State.hideShown, h.fc, h.res, h.tblValid, h.cal, h.lookup, h.stg, h.stgOvf, h.w0, h.q1024, h.params,
      h.cmds, h.trace]
  · intro h
    simp only [State.hideShown, State.mk.injEq, FilterRegisters.mk.injEq] at h
    obtain ⟨⟨fc, res, -⟩, -, -, -, -, tblValid, cal, lookup, stg, stgOvf, w0, q1024, params, cmds, trace⟩ := h
    exact ⟨fc, res, tblValid, cal, lookup, stg, stgOvf, w0, q1024, params, cmds, trace⟩

/-- A command does the same, and answers the same, when the shown fields are blanked out first. -/
theorem CommandEffect.hideShown {s u : State} {i : Instr} {r : Response} (h : CommandEffect s i u r) :
    ∃ u', CommandEffect s.hideShown i u' r ∧ u'.hideShown = u.hideShown := by
  cases h with
  | wrFclo b => exact ⟨_, .wrFclo b, rfl⟩
  | wrFchi b => exact ⟨_, .wrFchi b, rfl⟩
  | wrResfilt b => exact ⟨_, .wrResfilt b, rfl⟩
  | wrModevol b => exact ⟨_, .wrModevol b, rfl⟩
  | reset => exact ⟨_, .reset, rfl⟩
  | setEnable b => exact ⟨_, .setEnable b, rfl⟩
  | variantFails v c hb => exact ⟨_, .variantFails v c hb, rfl⟩
  | variantSelected v L hb => exact ⟨_, .variantSelected v L hb, rfl⟩
  | calBegin => exact ⟨_, .calBegin, rfl⟩
  | pointDropped c f hfull => exact ⟨_, .pointDropped c f hfull, rfl⟩
  | pointStaged c f hroom => exact ⟨_, .pointStaged c f hroom, rfl⟩
  | commitOverflowed ho => exact ⟨_, .commitOverflowed ho, rfl⟩
  | commitFails c ho hb => exact ⟨_, .commitFails c ho hb, rfl⟩
  | committed L ho hb => exact ⟨_, .committed L ho hb, rfl⟩

/-- A step does the same when the shown fields are blanked out first. -/
theorem StepEffect.hideShown {s t : State} (h : StepEffect s t) :
    ∃ t', StepEffect s.hideShown t' ∧ t'.hideShown = t.hideShown := by
  cases h with
  | idle hcmds => exact ⟨_, .idle hcmds, rfl⟩
  | illegal w rest hcmds hd => exact ⟨_, .illegal w rest hcmds hd, rfl⟩
  | command w rest i u r hcmds hd he =>
    obtain ⟨u', he', hu⟩ := he.hideShown
    exact ⟨_, .command w rest i u' r hcmds hd he', congrArg (State.respond · r) hu⟩

/-- Settles O30: blanking the shown fields out before a step changes nothing else after it, so two states that are equal
once blanked out step to states that are. -/
theorem shownFieldsComputeNothing : Obligations.ShownFieldsComputeNothing := by
  intro s s' h
  obtain ⟨t, ht⟩ := exists_stepEffect s
  obtain ⟨t', ht'⟩ := exists_stepEffect s'
  refine ⟨t, t', step_of_stepEffect ht, step_of_stepEffect ht', sameButShown_iff_hideShown_eq.2 ?_⟩
  obtain ⟨a, ha, hat⟩ := ht.hideShown
  obtain ⟨b, hb, hbt⟩ := ht'.hideShown
  rw [← sameButShown_iff_hideShown_eq.1 h] at hb
  rw [← hat, ← hbt, ha.unique hb]

end Sys2Proof.Machine
end

section
/-! ### The invariants (10_state.md section 6) -/

namespace Sys2Proof.Machine

/-- R190: under the invariants `w0` is what `DeriveW0` gives, with and without a table. -/
theorem State.Inv.w0_derived {s : State} (h : s.Inv) : s.w0 = s.deriveW0 := by
  cases hv : s.tblValid with
  | false => rw [deriveW0_of_invalid hv, (h.table_absent hv).2.2]
  | true =>
    obtain ⟨T, L, -, hL, -, -, hw0⟩ := h.table_present hv
    rw [deriveW0_of_valid hv hL, hw0]

/-- The invariants constrain the register file through the derived coefficients only, and `enabled` and the ports not
at all. -/
theorem State.Inv.of_derived {s t : State} (h : s.Inv) (hw0 : t.w0 = t.deriveW0) (hq : t.q1024 = t.deriveQ)
    (hrest : t = { s with
      regs := t.regs, w0 := t.w0, q1024 := t.q1024, enabled := t.enabled, cmds := t.cmds, trace := t.trace }) :
    t.Inv := by
  have htbl : t.tblValid = s.tblValid := by rw [hrest]
  have hcal : t.cal = s.cal := by rw [hrest]
  have hlookup : t.lookup = s.lookup := by rw [hrest]
  refine ⟨fun hv => ?_, fun hv => ?_, hq, ?_, ?_, ?_, ?_, ?_, ?_⟩
  · obtain ⟨T, L, hT, hL, hval, hb, -⟩ := h.table_present (htbl ▸ hv)
    exact ⟨T, L, hcal.trans hT, hlookup.trans hL, hval, hb, hw0.trans (deriveW0_of_valid hv (hlookup.trans hL))⟩
  · obtain ⟨hT, hL, -⟩ := h.table_absent (htbl ▸ hv)
    exact ⟨hcal.trans hT, hlookup.trans hL, hw0.trans (deriveW0_of_invalid hv)⟩
  · rw [hrest]; exact h.variant_present
  · rw [hrest]; exact h.variant_absent
  · rw [hrest]; exact h.variant_has_table
  · rw [hrest]; exact h.staging_fits
  · rw [hrest]; exact h.overflow_full
  · rw [hrest]; exact h.active_fits

theorem State.Inv.respond {s : State} (h : s.Inv) (r : Response) : (s.respond r).Inv :=
  h.of_derived h.w0_derived h.q1024_derived rfl

theorem State.Inv.takeWord {s : State} (h : s.Inv) (rest : List Word) : ({ s with cmds := rest } : State).Inv :=
  h.of_derived h.w0_derived h.q1024_derived rfl

/-- A rebuild keeps the invariants where the table it built fits `CAL` (R37). -/
theorem State.Inv.replaceTable {s : State} (h : s.Inv) {T : Table} {L : Lookup} (hb : build T = .ok L)
    (hfits : T.length ≤ Config.nptsMax ∨ T = s.params.calA ∨ T = s.params.calB) : (s.replaceTable T L).Inv :=
  { h with
    table_present := fun _ => ⟨T, L, rfl, rfl, validate_of_build_ok hb, hb, rfl⟩
    table_absent := fun hv => nomatch hv
    variant_has_table := fun _ => rfl
    active_fits := fun _ hT => Option.some.inj hT ▸ hfits }

/-- Once there is a table, selecting a variant keeps the invariants. -/
theorem State.Inv.markVariant {s : State} (h : s.Inv) (htbl : s.tblValid = true) (v : Variant) :
    (s.markVariant v (dcOf s.params v)).Inv :=
  { h with
    variant_present := fun _ => ⟨v, rfl, rfl⟩
    variant_absent := fun hv => nomatch hv
    variant_has_table := fun _ => htbl }

theorem State.Inv.emptyStaging {s : State} (h : s.Inv) : s.emptyStaging.Inv :=
  { h with
    staging_fits := Nat.zero_le _
    overflow_full := fun ho => nomatch ho }

theorem State.Inv.setOverflow {s : State} (h : s.Inv) (hfull : s.stgCnt = 29) : s.setOverflow.Inv :=
  { h with overflow_full := fun _ => hfull }

/-- A point is appended only where there is room, and there is room only while nothing overflowed. -/
theorem State.Inv.appendStaging {s : State} (h : s.Inv) (hroom : s.stgCnt ≠ 29) (p : Point) :
    (s.appendStaging p).Inv :=
  { h with
    staging_fits := by
      have hlt : s.stg.length < 29 := lt_of_le_of_ne h.staging_fits hroom
      simpa [State.stgCnt] using hlt
    overflow_full := fun ho => absurd (h.overflow_full ho) hroom }

theorem tableOf_builtIn (p : Params) (v : Variant) : tableOf p v = p.calA ∨ tableOf p v = p.calB := by
  cases v with
  | A => exact .inl rfl
  | B => exact .inr rfl

theorem CommandEffect.inv {s u : State} {i : Instr} {r : Response} (he : CommandEffect s i u r) (h : s.Inv) :
    u.Inv := by
  cases he with
  | wrFclo b => exact h.of_derived rfl h.q1024_derived rfl
  | wrFchi b => exact h.of_derived rfl h.q1024_derived rfl
  | wrResfilt b => exact h.of_derived h.w0_derived rfl rfl
  | wrModevol b => exact h.of_derived h.w0_derived h.q1024_derived rfl
  | reset => exact h.of_derived rfl rfl rfl
  | setEnable b => exact h.of_derived h.w0_derived h.q1024_derived rfl
  | variantFails v c hb => exact h
  | variantSelected v L hb => exact (h.replaceTable hb (.inr (tableOf_builtIn s.params v))).markVariant rfl v
  | calBegin => exact h.emptyStaging
  | pointDropped c f hfull => exact h.setOverflow hfull
  | pointStaged c f hroom => exact h.appendStaging hroom ⟨c, f⟩
  | commitOverflowed ho => exact h
  | commitFails c ho hb => exact h
  | committed L ho hb => exact h.replaceTable hb (.inl h.staging_fits)

/-- Settles O34: taking a word, each effect of a command and the response keep the invariants. -/
theorem stepKeepsTheInvariants : Obligations.StepKeepsTheInvariants := by
  intro s t h hstep
  cases stepEffect_of_step hstep with
  | idle hcmds => exact h
  | illegal w rest hcmds hd => exact (h.takeWord rest).respond _
  | command w rest i u r hcmds hd he => exact (he.inv (h.takeWord rest)).respond r

theorem inv_powerOn (p : Params) (e : Bool) : (State.powerOn p e).Inv where
  table_present hv := nomatch hv
  table_absent _ := ⟨rfl, rfl, rfl⟩
  q1024_derived := qromRead_zero.symm
  variant_present hv := nomatch hv
  variant_absent _ := ⟨rfl, rfl⟩
  variant_has_table hv := nomatch hv
  staging_fits := Nat.zero_le _
  overflow_full ho := nomatch ho
  active_fits _ hT := nomatch hT

/-- Settles O33: at power-on nothing is valid and the staging table is empty; `State.reset` is one such state. -/
theorem powerOnMeetsTheInvariants : Obligations.PowerOnMeetsTheInvariants :=
  ⟨inv_powerOn, inv_powerOn _ _⟩

/-- R42: under the invariants `w0` has a value exactly while `tbl_valid` = 1. -/
theorem State.Inv.isSome_w0 {s : State} (h : s.Inv) : s.w0.isSome = s.tblValid := by
  cases hv : s.tblValid with
  | false => rw [(h.table_absent hv).2.2]; rfl
  | true =>
    obtain ⟨T, L, -, -, -, -, hw0⟩ := h.table_present hv
    rw [hw0]; rfl

/-- R27: under the invariants `dc` has a value exactly while `var_valid` = 1. -/
theorem State.Inv.isSome_dc {s : State} (h : s.Inv) : s.dc.isSome = s.varValid := by
  cases hv : s.varValid with
  | false => rw [(h.variant_absent hv).2]; rfl
  | true =>
    obtain ⟨v, -, hdc⟩ := h.variant_present hv
    rw [hdc]; rfl

/-- A value shown only while its validity bit is 1 is the value itself, if it exists only then. -/
theorem shown_eq_of_isSome {α : Type} {x : Option α} {valid : Bool} (h : x.isSome = valid) :
    (if valid then x else none) = x := by
  subst h
  cases x with
  | none => rfl
  | some a => rfl

theorem State.Inv.oW0_eq {s : State} (h : s.Inv) : s.ports.oW0 = s.w0 := shown_eq_of_isSome h.isSome_w0

theorem State.Inv.oDc_eq {s : State} (h : s.Inv) : s.ports.oDc = s.dc := shown_eq_of_isSome h.isSome_dc

/-- U1: reading `o_w0` where it carries no value is the consumer's fault. -/
theorem readW0_of_none {s : State} (h : s.ports.oW0 = none) : s.readW0 = .error .w0HasNoValue := by
  simp [State.readW0, h]

/-- U1: reading `o_dc` where it carries no value is the consumer's fault. -/
theorem readDc_of_none {s : State} (h : s.ports.oDc = none) : s.readDc = .error .dcHasNoValue := by
  simp [State.readDc, h]

/-- Settles O35: `o_w0` and `o_dc` show the fields themselves, since these have a value exactly while valid. -/
theorem portsShowTheState : Obligations.PortsShowTheState := by
  intro s h
  refine ⟨?_, ⟨?_, ?_⟩, fun hv => ?_, fun hv => ?_⟩
  · conv_rhs => rw [← h.oW0_eq, ← h.oDc_eq]
    rfl
  · rw [h.oW0_eq]; exact h.isSome_w0
  · rw [h.oDc_eq]; exact h.isSome_dc
  · exact readW0_of_none (h.oW0_eq.trans (h.table_absent hv).2.2)
  · exact readDc_of_none (h.oDc_eq.trans (h.variant_absent hv).2)

end Sys2Proof.Machine
end

section
/-! ### What a command leaves unchanged, and its one response (10_state.md, 60_exceptions.md R200) -/

namespace Sys2Proof.Machine

variable {s t u : State} {i : Instr} {r : Response}

/-! The frame of a command, one lemma per group of fields. -/

theorem CommandEffect.params_cmds (h : CommandEffect s i u r) : u.params = s.params ∧ u.cmds = s.cmds := by
  cases h <;> exact ⟨rfl, rfl⟩

theorem CommandEffect.regs_of_ne (h : CommandEffect s i u r) : (∀ b, i ≠ .wrFclo b) → (∀ b, i ≠ .wrFchi b) →
    (∀ b, i ≠ .wrResfilt b) → (∀ b, i ≠ .wrModevol b) → i ≠ .reset → u.regs = s.regs := by
  cases h <;> simp

theorem CommandEffect.enabled_of_ne (h : CommandEffect s i u r) : (∀ b, i ≠ .setEnable b) → u.enabled = s.enabled := by
  cases h <;> simp

theorem CommandEffect.variant_of_ne (h : CommandEffect s i u r) :
    (∀ v, i ≠ .selVariant v) → u.variant = s.variant ∧ u.varValid = s.varValid ∧ u.dc = s.dc := by
  cases h <;> simp

theorem CommandEffect.table_of_ne (h : CommandEffect s i u r) : (∀ v, i ≠ .selVariant v) → i ≠ .calCommit →
    u.tblValid = s.tblValid ∧ u.cal = s.cal ∧ u.lookup = s.lookup := by
  cases h <;> simp

theorem CommandEffect.staging_of_ne (h : CommandEffect s i u r) :
    i ≠ .calBegin → (∀ c f, i ≠ .calPoint c f) → u.stg = s.stg ∧ u.stgOvf = s.stgOvf := by
  cases h <;> simp

/-- Settles O28: the response changes the trace alone, and before it each effect leaves the group unchanged. -/
theorem onlyNamedCommandsWrite : Obligations.OnlyNamedCommandsWrite := by
  intro i s t hexec
  obtain ⟨u, r, h, rfl⟩ := commandEffect_of_exec hexec
  exact ⟨h.params_cmds, h.regs_of_ne, h.enabled_of_ne, h.variant_of_ne, h.table_of_ne, h.staging_of_ne⟩

/-- No command clears `var_valid` or `tbl_valid` (R27, R29). -/
theorem CommandEffect.validity_kept (h : CommandEffect s i u r) :
    (s.varValid = true → u.varValid = true) ∧ (s.tblValid = true → u.tblValid = true) := by
  cases h <;> simp

/-- Settles O29: no effect of a step clears a validity bit. -/
theorem validityIsForEver : Obligations.ValidityIsForEver := by
  intro s t hstep
  cases stepEffect_of_step hstep with
  | idle hcmds => exact ⟨id, id⟩
  | illegal w rest hcmds hd => exact ⟨id, id⟩
  | command w rest i u r hcmds hd he => exact he.validity_kept

/-- R46: before its response a command sends out `state_clear` if it is RESET, and else nothing. -/
theorem CommandEffect.trace_eq (h : CommandEffect s i u r) :
    i = .reset ∧ u.trace = s.trace ++ [.stateClear] ∨ i ≠ .reset ∧ u.trace = s.trace := by
  cases h <;> simp

/-- Settles O9: every word taken ends in one `respond`, and before it only RESET sends anything out. -/
theorem oneResponsePerCommand : Obligations.OneResponsePerCommand := by
  intro s w rest hcmds
  cases hd : decode w with
  | error e =>
    exact ⟨_, .error .illegalCommand, step_of_stepEffect (.illegal w rest hcmds hd), rfl, .inr ⟨nofun, rfl⟩,
      oResp_respond _ _, response_code_cases _⟩
  | ok i =>
    obtain ⟨u, r, he⟩ := exists_commandEffect i { s with cmds := rest }
    refine ⟨_, r, step_of_stepEffect (.command w rest i u r hcmds hd he), he.params_cmds.2, ?_,
      oResp_respond _ _, response_code_cases _⟩
    rcases he.trace_eq with ⟨hi, htrace⟩ | ⟨hi, htrace⟩
    · exact .inl ⟨congrArg Except.ok hi, by simp [htrace]⟩
    · exact .inr ⟨fun h => hi (Except.ok.inj h), by simp [htrace]⟩

end Sys2Proof.Machine
end

section
/-! ### `F` at a calibration point and on the whole domain (40_spline_interpolator.md R125, R132, R133) -/

namespace Sys2Proof.Machine

/-! #### The codes of a table and of its runs -/

theorem sortedCodes_iff_pairwise (T : Table) :
    sortedCodes T = true ↔ T.Pairwise fun p q => p.code.toNat ≤ q.code.toNat := by
  induction T with
  | nil => simp [sortedCodes]
  | cons p rest ih =>
    cases rest with
    | nil => simp [sortedCodes]
    | cons q rest =>
      rw [sortedCodes_cons_cons, Bool.and_eq_true, decide_eq_true_eq, ih, List.pairwise_cons (a := p)]
      refine and_congr_left fun hq => ⟨fun hpq x hx => ?_, fun h => h q List.mem_cons_self⟩
      rcases List.mem_cons.1 hx with rfl | hx
      · exact hpq
      · exact hpq.trans (List.rel_of_pairwise_cons hq hx)

/-- R124: on a sorted table the codes of each run increase strictly. -/
theorem run_pairwise_lt {T : Table} (hT : sortedCodes T = true) :
    ∀ r ∈ runs T, r.Pairwise fun p q => p.code.toNat < q.code.toNat := by
  induction T with
  | nil => simp [runs]
  | cons p rest ih =>
    cases rest with
    | nil => simp [runs]
    | cons q rest =>
      have hruns := ih (sortedCodes_tail hT)
      obtain ⟨r, rs, hr⟩ := runs_cons q rest
      rw [hr, List.forall_mem_cons] at hruns
      simp only [runs, hr]
      split
      · exact List.forall_mem_cons.2 ⟨List.pairwise_singleton _ _, List.forall_mem_cons.2 hruns⟩
      · rename_i hne
        obtain ⟨hqr, hrs⟩ := hruns
        have hpq : p.code.toNat < q.code.toNat := by
          rw [sortedCodes_cons_cons, Bool.and_eq_true, decide_eq_true_eq] at hT
          exact lt_of_le_of_ne hT.1 fun h => hne (BitVec.eq_of_toNat_eq h)
        refine List.forall_mem_cons.2 ⟨List.pairwise_cons.2 ⟨fun x hx => ?_, hqr⟩, hrs⟩
        rcases List.mem_cons.1 hx with rfl | hx
        · exact hpq
        · exact hpq.trans (List.rel_of_pairwise_cons hqr hx)

/-- R125: every code between the first and the last code of a sorted table lies in the range of a run. -/
theorem exists_run_covering {T : Table} (hT : sortedCodes T = true) {c : ℕ} {p q : Point} (hp : T.head? = some p)
    (hq : T.getLast? = some q) (hpc : p.code.toNat ≤ c) (hcq : c ≤ q.code.toNat) :
    ∃ r ∈ runs T, ∃ a b, r.head? = some a ∧ r.getLast? = some b ∧ a.code.toNat ≤ c ∧ c ≤ b.code.toNat := by
  induction T generalizing p with
  | nil => simp at hp
  | cons x rest ih =>
    obtain rfl : x = p := by simpa using hp
    cases rest with
    | nil => exact ⟨[x], by simp [runs], x, q, rfl, hq, hpc, hcq⟩
    | cons y rest =>
      obtain ⟨r, rs, hr⟩ := runs_cons y rest
      have hstrict := run_pairwise_lt hT
      simp only [runs, hr] at hstrict ⊢
      by_cases hyc : y.code.toNat ≤ c
      · obtain ⟨r', hr', a, b, ha, hb, hac, hcb⟩ := ih (sortedCodes_tail hT) rfl (by simpa using hq) hyc
        rw [hr] at hr'
        split
        · exact ⟨r', List.mem_cons_of_mem _ hr', a, b, ha, hb, hac, hcb⟩
        · rcases List.mem_cons.1 hr' with rfl | hr'
          · exact ⟨_, List.mem_cons_self, x, b, rfl, by simpa using hb, hpc, hcb⟩
          · exact ⟨r', List.mem_cons_of_mem _ hr', a, b, ha, hb, hac, hcb⟩
      · have hne : x.code ≠ y.code := fun h => hyc (h ▸ hpc)
        rw [if_neg hne] at hstrict ⊢
        refine ⟨_, List.mem_cons_self, x, _, rfl, List.getLast?_eq_some_getLast (by simp), hpc, ?_⟩
        have hlast : ∀ z ∈ y :: r, y.code.toNat ≤ z.code.toNat := fun z hz => by
          rcases List.mem_cons.1 hz with rfl | hz
          · exact le_rfl
          · exact (List.rel_of_pairwise_cons (hstrict _ List.mem_cons_self).of_cons hz).le
        rw [List.getLast_cons (by simp)]
        exact (not_le.1 hyc).le.trans (hlast _ (List.getLast_mem _))

/-! #### A run's value at its knots, outside its range and inside it -/

theorem segment_left {a b : Knot} (h : a.pt.code.toNat < b.pt.code.toNat) :
    segment a b (a.pt.code.toNat : ℚ) = yOf a.pt := by
  have hx : xOf b.pt - xOf a.pt ≠ 0 := sub_ne_zero.2 (by simp only [xOf]; exact_mod_cast h.ne')
  change segment a b (xOf a.pt) = _
  simp only [segment, sub_self, mul_zero, zero_mul, add_zero, zero_div, sub_zero]
  exact mul_div_cancel_right₀ _ hx

theorem segment_right {a b : Knot} (h : a.pt.code.toNat < b.pt.code.toNat) :
    segment a b (b.pt.code.toNat : ℚ) = yOf b.pt := by
  have hx : xOf b.pt - xOf a.pt ≠ 0 := sub_ne_zero.2 (by simp only [xOf]; exact_mod_cast h.ne')
  change segment a b (xOf b.pt) = _
  simp only [segment, sub_self, mul_zero, zero_mul, zero_add, zero_div, sub_zero]
  exact mul_div_cancel_right₀ _ hx

/-- Whatever its moments, a run takes its points' frequencies at its points (R126, first property). -/
theorem runValue_knot {K : RunSpline} (hK : K.Pairwise fun a b => a.pt.code.toNat < b.pt.code.toNat) {k : Knot}
    (hk : k ∈ K) : runValue K k.pt.code.toNat = some (yOf k.pt) := by
  match K with
  | [] => simp at hk
  | [a] =>
    obtain rfl := List.mem_singleton.1 hk
    simp [runValue]
  | a :: b :: rest =>
    have hab : a.pt.code.toNat < b.pt.code.toNat := List.rel_of_pairwise_cons hK List.mem_cons_self
    rcases List.mem_cons.1 hk with rfl | hk'
    · simp only [runValue]
      rw [if_pos ⟨le_rfl, hab.le⟩, segment_left hab]
    · rcases List.mem_cons.1 hk' with rfl | hk''
      · simp only [runValue]
        rw [if_pos ⟨hab.le, le_rfl⟩, segment_right hab]
      · have hbk : b.pt.code.toNat < k.pt.code.toNat := List.rel_of_pairwise_cons hK.of_cons hk''
        simp only [runValue]
        rw [if_neg fun h => absurd h.2 (by omega)]
        exact runValue_knot hK.of_cons hk'

theorem runValue_eq_none_of_lt {K : RunSpline} {c : ℕ} (h : ∀ k ∈ K, c < k.pt.code.toNat) : runValue K c = none := by
  match K with
  | [] => rfl
  | [a] => exact if_neg (h a List.mem_cons_self).ne
  | a :: b :: rest =>
    have ha : c < a.pt.code.toNat := h a List.mem_cons_self
    simp only [runValue]
    rw [if_neg fun hc => absurd hc.1 (by omega)]
    exact runValue_eq_none_of_lt (List.forall_mem_cons.1 h).2

theorem isSome_runValue {K : RunSpline} {c : ℕ} {a b : Knot} (ha : K.head? = some a) (hb : K.getLast? = some b)
    (hac : a.pt.code.toNat ≤ c) (hcb : c ≤ b.pt.code.toNat) : (runValue K c).isSome = true := by
  match K with
  | [] => simp at ha
  | [k] =>
    obtain rfl : k = a := by simpa using ha
    obtain rfl : k = b := by simpa using hb
    simp [runValue, le_antisymm hcb hac]
  | k :: l :: rest =>
    obtain rfl : k = a := by simpa using ha
    simp only [runValue]
    split
    · rfl
    · exact isSome_runValue (K := l :: rest) rfl (by simpa using hb) (by omega) hcb

/-! #### The last run wins (R132) -/

theorem isSome_lastRunValue {S : List RunSpline} {c : ℕ} {K : RunSpline} (hK : K ∈ S)
    (h : (runValue K c).isSome = true) : (lastRunValue S c).isSome = true := by
  induction S with
  | nil => simp at hK
  | cons K' S ih =>
    simp only [lastRunValue]
    split
    · rfl
    · rename_i hnone
      rcases List.mem_cons.1 hK with rfl | hK
      · exact h
      · rw [hnone] at ih; exact absurd (ih hK) (by simp)

theorem lastRunValue_eq_none {S : List RunSpline} {c : ℕ} (h : ∀ K ∈ S, runValue K c = none) :
    lastRunValue S c = none := by
  induction S with
  | nil => rfl
  | cons K S ih =>
    obtain ⟨hK, hS⟩ := List.forall_mem_cons.1 h
    simp only [lastRunValue, ih hS, hK]

theorem mem_splineOf {run : Table} {k : Knot} (hk : k ∈ splineOf run) : k.pt ∈ run := by
  have := List.mem_map_of_mem (f := Knot.pt) hk
  rwa [splineOf_points] at this

theorem exists_knot_of_mem {run : Table} {p : Point} (hp : p ∈ run) : ∃ k ∈ splineOf run, k.pt = p := by
  rw [← splineOf_points run] at hp
  exact List.mem_map.1 hp

theorem splineOf_pairwise_lt {run : Table} (h : run.Pairwise fun p q => p.code.toNat < q.code.toNat) :
    (splineOf run).Pairwise fun a b => a.pt.code.toNat < b.pt.code.toNat := by
  rw [← splineOf_points run, List.pairwise_map] at h
  exact h

/-! #### The last point with a code (R133) -/

theorem lastFreqAt_append (A B : Table) (c : Code) : lastFreqAt (A ++ B) c = (lastFreqAt B c).or (lastFreqAt A c) := by
  simp only [lastFreqAt, List.filter_append, List.getLast?_append]
  cases ((B.filter fun p => decide (p.code = c)).getLast?) <;> rfl

theorem exists_point_of_lastFreqAt {T : Table} {c : Code} {f : Freq} (h : lastFreqAt T c = some f) :
    ∃ p ∈ T, p.code = c ∧ p.freq = f := by
  obtain ⟨p, hp, hf⟩ := Option.map_eq_some_iff.1 h
  have hmem := List.mem_filter.1 (List.mem_of_getLast? hp)
  exact ⟨p, hmem.1, of_decide_eq_true hmem.2, hf⟩

theorem code_ne_of_lastFreqAt_eq_none {T : Table} {c : Code} (h : lastFreqAt T c = none) : ∀ p ∈ T, p.code ≠ c := by
  have hnil : (T.filter fun p => decide (p.code = c)) = [] := by simpa [lastFreqAt] using h
  simpa using hnil

/-- R133 (a) over the list of runs: the run that holds the last point with the code `c` takes that point's frequency
there, and every later run lies above `c`. -/
theorem lastRunValue_map_splineOf {R : List Table} (hsorted : R.flatten.Pairwise fun p q => p.code.toNat ≤ q.code.toNat)
    (hstrict : ∀ r ∈ R, r.Pairwise fun p q => p.code.toNat < q.code.toNat) {c : Code} {f : Freq}
    (h : lastFreqAt R.flatten c = some f) : lastRunValue (R.map splineOf) c.toNat = some (f.toNat : ℚ) := by
  induction R with
  | nil => simp [lastFreqAt] at h
  | cons r rs ih =>
    rw [List.flatten_cons] at hsorted h
    obtain ⟨-, hrs, hcross⟩ := List.pairwise_append.1 hsorted
    obtain ⟨hr, hstrict⟩ := List.forall_mem_cons.1 hstrict
    rw [lastFreqAt_append] at h
    cases hlast : lastFreqAt rs.flatten c with
    | some g =>
      obtain rfl : g = f := by simpa [hlast] using h
      simp only [List.map_cons, lastRunValue, ih hrs hstrict hlast]
    | none =>
      rw [hlast, Option.none_or] at h
      obtain ⟨p, hp, rfl, rfl⟩ := exists_point_of_lastFreqAt h
      have habove : ∀ q ∈ rs.flatten, p.code.toNat < q.code.toNat := fun q hq =>
        lt_of_le_of_ne (hcross p hp q hq) fun he =>
          code_ne_of_lastFreqAt_eq_none hlast q hq (BitVec.eq_of_toNat_eq he.symm)
      have hlater : lastRunValue (rs.map splineOf) p.code.toNat = none := by
        refine lastRunValue_eq_none fun K hK => ?_
        obtain ⟨r', hr', rfl⟩ := List.mem_map.1 hK
        exact runValue_eq_none_of_lt fun k hk => habove _ (List.mem_flatten.2 ⟨r', hr', mem_splineOf hk⟩)
      obtain ⟨k, hk, rfl⟩ := exists_knot_of_mem hp
      simp only [List.map_cons, lastRunValue, hlater]
      exact runValue_knot (splineOf_pairwise_lt hr) hk

/-- R133 (a): on a valid table `F` at a code of the table is the frequency of the last point with that code. -/
theorem frequencyAt_of_lastFreqAt {T : Table} (hT : validate T = none) {c : Code} {f : Freq}
    (h : lastFreqAt T c = some f) : frequencyAt T c.toNat = some (f.toNat : ℚ) := by
  obtain ⟨-, hsorted, -⟩ := (validate_eq_none_iff T).1 hT
  refine lastRunValue_map_splineOf (R := runs T) ?_ (run_pairwise_lt hsorted) ?_
  · rw [flatten_runs]; exact (sortedCodes_iff_pairwise T).1 hsorted
  · rw [flatten_runs]; exact h

/-- R125, R132: on a valid table `F` has a value at every code. -/
theorem exists_frequencyAt {T : Table} (hT : validate T = none) (c : Code) : ∃ f, frequencyAt T c.toNat = some f := by
  obtain ⟨-, hsorted, hcovers⟩ := (validate_eq_none_iff T).1 hT
  simp only [coversDomain, Bool.and_eq_true, decide_eq_true_eq] at hcovers
  obtain ⟨p, hp, hp0⟩ := Option.map_eq_some_iff.1 hcovers.1
  obtain ⟨q, hq, hq2047⟩ := Option.map_eq_some_iff.1 hcovers.2
  have hcq : c.toNat ≤ q.code.toNat := by rw [hq2047]; exact Nat.le_of_lt_succ c.isLt
  obtain ⟨r, hr, a, b, ha, hb, hac, hcb⟩ := exists_run_covering hsorted hp hq (by simp [hp0]) hcq
  rw [← splineOf_points r, List.head?_map] at ha
  rw [← splineOf_points r, List.getLast?_map] at hb
  obtain ⟨ka, hka, rfl⟩ := Option.map_eq_some_iff.1 ha
  obtain ⟨kb, hkb, rfl⟩ := Option.map_eq_some_iff.1 hb
  exact Option.isSome_iff_exists.1
    (isSome_lastRunValue (List.mem_map_of_mem hr) (isSome_runValue hka hkb hac hcb))

end Sys2Proof.Machine
end

section
/-! ### What a built table holds (40_spline_interpolator.md R133, R134, R136) -/

namespace Sys2Proof.Machine

/-! #### `quant` within six decimals of π -/

/-- A rounding by an enclosure that reaches 3.141592 and 3.141593 is the nearest integer up to that precision. -/
theorem roundWithin_near {lo hi s : ℚ} {n : ℤ} (hs : 0 < s) (hlo : lo < 3.141593) (hhi : 3.141592 < hi)
    (h : roundWithin lo hi s = some n) :
    scaled 3.141592 s - 1 / 2 < n ∧ (n : ℚ) < scaled 3.141593 s + 1 / 2 := by
  have hk : 0 < s * Config.scaleOverPi := mul_pos hs (by norm_num [Config.scaleOverPi])
  have hscaled : ∀ {p q : ℚ}, p < q → scaled p s < scaled q s := fun hpq => mul_lt_mul_of_pos_left hpq hk
  rw [roundWithin_eq] at h
  split at h
  · rename_i hc
    obtain rfl := Option.some.inj h
    exact ⟨by linarith [hc.2, hscaled hhi], by linarith [hc.1, hscaled hlo]⟩
  · cases h

theorem piLo_lt_d6 (n : ℕ) : piLo n < 3.141593 := by
  have h : ((piLo n : ℚ) : ℝ) < ((3.141593 : ℚ) : ℝ) := by
    push_cast; linarith [piLo_le_pi n, Real.pi_lt_d6]
  exact_mod_cast h

theorem d6_lt_piHi (n : ℕ) : 3.141592 < piHi n := by
  have h : ((3.141592 : ℚ) : ℝ) < ((piHi n : ℚ) : ℝ) := by
    push_cast; linarith [pi_le_piHi n, Real.pi_gt_d6]
  exact_mod_cast h

theorem quantPos_near (s : ℚ) (hs : 0 < s) :
    scaled 3.141592 s - 1 / 2 < quantPos s hs ∧ (quantPos s hs : ℚ) < scaled 3.141593 s + 1 / 2 := by
  unfold quantPos
  split
  · rename_i n h
    exact roundWithin_near hs (by norm_num [pi60Lo]) (by norm_num [pi60Hi]) h
  · exact roundWithin_near hs (piLo_lt_d6 _) (d6_lt_piHi _) (Option.some_get _).symm

theorem quant_near {s : ℚ} (hs : 0 ≤ s) :
    scaled 3.141592 s - 1 / 2 < quant s ∧ (quant s : ℚ) < scaled 3.141593 s + 1 / 2 := by
  rcases hs.eq_or_lt with rfl | hs
  · norm_num [quant, scaled]
  · rw [quant, dif_pos hs]; exact quantPos_near s hs

/-- `SCALE` is well above 1, so the order of two frequencies of 16 bits is kept strictly, the enclosure's width included. -/
theorem quant_lt_quant {f g : Freq} (h : g.toNat < f.toNat) : quant (g.toNat : ℚ) < quant (f.toNat : ℚ) := by
  have hf := (quant_near (s := (f.toNat : ℚ)) (Nat.cast_nonneg _)).1
  have hg := (quant_near (s := (g.toNat : ℚ)) (Nat.cast_nonneg _)).2
  have hgf : (g.toNat : ℚ) + 1 ≤ f.toNat := by exact_mod_cast h
  have hfmax : (f.toNat : ℚ) ≤ 65535 := by exact_mod_cast Nat.le_of_lt_succ f.isLt
  simp only [scaled, Config.scaleOverPi] at hf hg
  have : ((quant (g.toNat : ℚ) : ℤ) : ℚ) < ((quant (f.toNat : ℚ) : ℤ) : ℚ) := by linarith
  exact_mod_cast this

/-- Six decimals of π decide a rounding that they put between the same two halves. -/
theorem quant_eq_of_near {s : ℚ} (hs : 0 ≤ s) {n : ℤ} (hlo : (n : ℚ) - 1 / 2 ≤ scaled 3.141592 s)
    (hhi : scaled 3.141593 s ≤ n + 1 / 2) : quant s = n := by
  obtain ⟨h1, h2⟩ := quant_near hs
  have hlt : ((n - 1 : ℤ) : ℚ) < quant s := by push_cast; linarith
  have hgt : (quant s : ℚ) < ((n + 1 : ℤ) : ℚ) := by push_cast; linarith
  have hlt' := Int.cast_lt.1 hlt
  have hgt' := Int.cast_lt.1 hgt
  omega

/-- Vector V1. -/
theorem quant_220 : quant ((220 : ℕ) : ℚ) = 1449 :=
  quant_eq_of_near (Nat.cast_nonneg _) (by norm_num [scaled, Config.scaleOverPi])
    (by norm_num [scaled, Config.scaleOverPi])

/-- Vector V2. -/
theorem quant_18000 : quant ((18000 : ℕ) : ℚ) = 118591 :=
  quant_eq_of_near (Nat.cast_nonneg _) (by norm_num [scaled, Config.scaleOverPi])
    (by norm_num [scaled, Config.scaleOverPi])

/-! #### The entries of a built table -/

/-- R136: the entry at `c` is `Quant(F(c))`. -/
theorem lookupRead_of_frequencyAt {T : Table} {L : Lookup} (hb : build T = .ok L) {c : Code} {f : ℚ}
    (hf : frequencyAt T c.toNat = some f) : (lookupRead L c).toInt = quant f := by
  rw [lookupRead_of_build_ok hb, entryValue]
  exact congrArg quant (by rw [← frequencyAt, hf, Option.getD_some])

/-- R133, R136: the entry at a code of the table is the quantised frequency of the last point with that code. -/
theorem lookupRead_of_lastFreqAt {T : Table} {L : Lookup} (hb : build T = .ok L) {c : Code} {f : Freq}
    (hf : lastFreqAt T c = some f) : (lookupRead L c).toInt = quant (f.toNat : ℚ) :=
  lookupRead_of_frequencyAt hb (frequencyAt_of_lastFreqAt (validate_of_build_ok hb) hf)

/-- Settles O49: both codes are codes of the table, and `Quant` keeps the jump down between their last frequencies. -/
theorem variantADropsAtCode1024 : Obligations.VariantADropsAtCode1024 := by
  intro T L hT hb
  obtain ⟨f, g, hf, hg, hgf⟩ := hT.jump_down
  rw [lookupRead_of_lastFreqAt hb hf, lookupRead_of_lastFreqAt hb hg]
  exact quant_lt_quant hgf

/-- R34 item 4 at code 0, vector V1. -/
theorem lookupRead_first_of_conformsA {T : Table} {L : Lookup} (hT : ConformsA T) (hb : build T = .ok L) :
    lookupRead L 0 = 1449 := by
  refine BitVec.eq_of_toInt_eq ?_
  rw [lookupRead_of_lastFreqAt hb hT.first_freq]
  exact quant_220

/-- R34 item 4 at code 2047, vector V2. -/
theorem lookupRead_last_of_conformsA {T : Table} {L : Lookup} (hT : ConformsA T) (hb : build T = .ok L) :
    lookupRead L 2047 = 118591 := by
  refine BitVec.eq_of_toInt_eq ?_
  rw [lookupRead_of_lastFreqAt hb hT.last_freq]
  exact quant_18000

/-- Settles O20: conforming tables build, so SEL_VARIANT selects; the entries follow from R133 and R136. -/
theorem selVariantOnConformingTables : Obligations.SelVariantOnConformingTables := by
  intro s hp
  obtain ⟨LA, hA⟩ := hp.calA.builds
  obtain ⟨LB, hB⟩ := hp.calB.builds
  obtain ⟨f, hf⟩ := exists_frequencyAt hp.calB.valid s.regs.fc
  refine ⟨⟨_, exec_of_commandEffect (.variantSelected .A LA hA), rfl, rfl, rfl, rfl, rfl, hp.dcA, fun hfc => ?_,
      fun hfc => ?_⟩,
    ⟨_, exec_of_commandEffect (.variantSelected .B LB hB), rfl, rfl, rfl, rfl, rfl,
      ⟨f, _, hf, rfl, lookupRead_of_frequencyAt hB hf⟩, rfl, rfl, rfl⟩⟩
  · rw [State.respond_w0, State.replaceTable_w0, State.markVariant_regs, hfc,
      lookupRead_first_of_conformsA hp.calA hA]
  · rw [State.respond_w0, State.replaceTable_w0, State.markVariant_regs, hfc,
      lookupRead_last_of_conformsA hp.calA hA]

end Sys2Proof.Machine
end

section
/-! ### A step runs the command its word decodes to (20_memory.md R71, 30_encoding.md R90) -/

namespace Sys2Proof.Machine

/-- Settles O7: the presented word is the one accepted, and a word that decodes runs its command. -/
theorem stepRunsDecodedCommand : Obligations.StepRunsDecodedCommand := by
  intro s w rest i hcmds hd
  simp only [step, accept_of_cons hcmds, hd]

end Sys2Proof.Machine
end

section
/-! ### Rebuilds and derived coefficients have no history (20_memory.md R69, R76; 43_coefficient_deriver.md R195) -/

namespace Sys2Proof.Machine

variable {s u : State} {i : Instr} {r : Response} {T : Table}

/-- A selection repeated does what it did and leaves the state as it is: no command writes the built-in tables, so where
the build failed it fails again, and else every value written is there already. -/
theorem CommandEffect.selVariant_again {v : Variant} (h : CommandEffect s (.selVariant v) u r) :
    CommandEffect (u.respond r) (.selVariant v) (u.respond r) r := by
  cases h with
  | variantFails _ c hb => exact .variantFails v c hb
  | variantSelected _ L hb => exact .variantSelected v L hb

/-- Settles O21: the second selection has nothing left to write, and a selection sends out its response alone. -/
theorem selVariantIdempotent : Obligations.SelVariantIdempotent := by
  intro v s t hexec
  obtain ⟨u, r, he, rfl⟩ := commandEffect_of_exec hexec
  have htrace : u.trace = s.trace := (he.trace_eq.resolve_left nofun).2
  exact ⟨r, exec_of_commandEffect he.selVariant_again, by rw [State.respond_trace, htrace]⟩

theorem exec_of_rebuildsFrom_error {c : Cause} (h : RebuildsFrom i s T) (hb : build T = .error c) :
    exec i s = .next (s.respond (.error c)) := by
  rcases exec_cases_of_rebuildsFrom h with ⟨c', hb', he⟩ | ⟨L, t, hb', -⟩
  · rw [Except.error.inj (hb.symm.trans hb'), he]
  · rw [hb] at hb'; cases hb'

theorem exec_of_rebuildsFrom_ok {L : Lookup} (h : RebuildsFrom i s T) (hb : build T = .ok L) :
    ∃ t, exec i s = .next t ∧ t.trace = s.trace ++ [.response .ok] ∧ t.cal = some T ∧ t.tblValid = true ∧
      t.lookup = some L ∧ t.w0 = some (lookupRead L s.regs.fc) := by
  rcases exec_cases_of_rebuildsFrom h with ⟨c, hb', -⟩ | ⟨L', t, hb', he, htrace, hcal, htbl, hL, hw0, -⟩
  · rw [hb] at hb'; cases hb'
  · obtain rfl := Except.ok.inj (hb.symm.trans hb')
    exact ⟨t, he, htrace, hcal, htbl, hL, hw0⟩

/-- R76: what a rebuild answers and leaves is a function of the table, and for `w0` of `fc` too. -/
theorem rebuilds_agree {i' : Instr} {s' : State} (h : RebuildsFrom i s T) (h' : RebuildsFrom i' s' T) :
    ∃ t t' r, exec i s = .next t ∧ exec i' s' = .next t' ∧
      t.trace = s.trace ++ [.response r] ∧ t'.trace = s'.trace ++ [.response r] ∧
      (r = .ok → t.cal = some T ∧ t'.cal = some T ∧ t.tblValid = true ∧ t'.tblValid = true ∧
        t.lookup = t'.lookup ∧ (s.regs.fc = s'.regs.fc → t.w0 = t'.w0)) := by
  cases hb : build T with
  | error c =>
    exact ⟨_, _, .error c, exec_of_rebuildsFrom_error h hb, exec_of_rebuildsFrom_error h' hb, rfl, rfl, nofun⟩
  | ok L =>
    obtain ⟨t, he, htrace, hcal, htbl, hL, hw0⟩ := exec_of_rebuildsFrom_ok h hb
    obtain ⟨t', he', htrace', hcal', htbl', hL', hw0'⟩ := exec_of_rebuildsFrom_ok h' hb
    exact ⟨t, t', .ok, he, he', htrace, htrace', fun _ => ⟨hcal, hcal', htbl, htbl', hL.trans hL'.symm,
      fun hfc => by rw [hw0, hw0', hfc]⟩⟩

theorem deriveW0_congr {t t' : State} (htbl : t.tblValid = t'.tblValid) (hL : t.lookup = t'.lookup)
    (hfc : t.regs.fc = t'.regs.fc) : t.deriveW0 = t'.deriveW0 := by
  simp only [State.deriveW0, htbl, hL, hfc]

/-- R190: after a command that re-derives `w0` and answers OK, `w0` is what `DeriveW0` gives. -/
theorem CommandEffect.w0_derived (h : CommandEffect s i u .ok) (hi : rederivesW0 i = true) : u.w0 = u.deriveW0 := by
  cases h with
  | wrFclo b => rfl
  | wrFchi b => rfl
  | reset => rfl
  | variantSelected v L hb => rfl
  | committed L ho hb => rfl
  | _ => nomatch hi

/-- R192: after a command that re-derives `q1024`, it is what `DeriveQ` gives. -/
theorem CommandEffect.q1024_derived (h : CommandEffect s i u r) (hi : rederivesQ i = true) : u.q1024 = u.deriveQ := by
  cases h with
  | wrResfilt b => rfl
  | reset => rfl
  | _ => nomatch hi

theorem w0_eq_deriveW0_of_exec {t : State} (hi : rederivesW0 i = true) (hexec : exec i s = .next t)
    (hok : t.oResp = some 0) : t.w0 = t.deriveW0 := by
  obtain ⟨u, r, he, rfl⟩ := commandEffect_of_exec hexec
  have hcode : r.code = Response.ok.code := Option.some.inj ((oResp_respond u r).symm.trans hok)
  obtain rfl := response_code_injective hcode
  exact he.w0_derived hi

theorem q1024_eq_qromRead_of_exec {t : State} (hi : rederivesQ i = true) (hexec : exec i s = .next t) :
    t.q1024 = qromRead t.regs.res := by
  obtain ⟨u, r, he, rfl⟩ := commandEffect_of_exec hexec
  exact he.q1024_derived hi

/-- Settles O31: a rebuild is a function of its table, `w0` of `tbl_valid`, `LOOKUP` and `fc`, and `q1024` of `res`. -/
theorem coefficientsHaveNoHistory : Obligations.CoefficientsHaveNoHistory := by
  refine ⟨fun i i' s s' T h h' => rebuilds_agree h h', ?_, ?_⟩
  · intro i i' s s' t t' hi hi' hexec hexec' hok hok' htbl hL hfc
    rw [w0_eq_deriveW0_of_exec hi hexec hok, w0_eq_deriveW0_of_exec hi' hexec' hok', deriveW0_congr htbl hL hfc]
  · intro i i' s s' t t' hi hi' hexec hexec' hres
    rw [q1024_eq_qromRead_of_exec hi hexec, q1024_eq_qromRead_of_exec hi' hexec', hres]

end Sys2Proof.Machine
end

section
/-! ### `LOAD_CAL`, word by word (20_memory.md R75, 30_encoding.md R105, 41_chip_model_selector.md R152 to R156) -/

namespace Sys2Proof.Machine

theorem decode_encode_calPoint (c : Code) (f : Freq) : decode (encode (.calPoint c f)) = .ok (.calPoint c f) := by
  have hop : opField (encode (.calPoint c f)) = 8#4 := by
    ext j hj
    interval_cases j <;> simp [opField, encode]
  have hcode : codeField (encode (.calPoint c f)) = c := by
    ext j hj
    interval_cases j <;> simp [codeField, encode]
  have hfreq : freqField (encode (.calPoint c f)) = f := by
    ext j hj
    interval_cases j <;> simp [freqField, encode]
  simp [decode, hop, hcode, hfreq]

theorem run_succ_of_step {M : Host.Core} {s t : M.State} (h : M.step s = .next t) (k : ℕ) :
    M.run (k + 1) s = M.run k t := by
  simp only [Host.Core.run, h]

/-- A run whose first word encodes a command goes on from what the command leaves. -/
theorem run_succ_of_commandEffect {s u : State} {i : Instr} {r : Response} {rest : List Word}
    (hcmds : s.cmds = encode i :: rest) (hd : decode (encode i) = .ok i)
    (he : CommandEffect { s with cmds := rest } i u r) (k : ℕ) :
    core.run (k + 1) s = core.run k (u.respond r) :=
  run_succ_of_step (M := core) (step_of_stepEffect (.command _ _ _ _ _ hcmds hd he)) k

/-- The calibration point that `LOAD_CAL` writes as `p` (R105). -/
def pointOf (p : ℕ × ℕ) : Point := ⟨BitVec.ofNat 11 p.1, BitVec.ofNat 16 p.2⟩

/-- `s` once `LOAD_CAL` has staged the points `ps` and the words `rest` are left. -/
def State.stagePoints (s : State) (ps : List (ℕ × ℕ)) (rest : List Word) : State :=
  { s with
    stg := s.stg ++ ps.map pointOf
    cmds := rest
    trace := s.trace ++ List.replicate ps.length (.response .ok) }

theorem State.stagePoints_nil (s : State) : s.stagePoints [] s.cmds = s := by
  simp [State.stagePoints]

theorem State.stagePoints_cons (s : State) (p : ℕ × ℕ) (ps : List (ℕ × ℕ)) (w rest : List Word) :
    ((({ s with cmds := w } : State).appendStaging (pointOf p)).respond .ok).stagePoints ps rest =
      s.stagePoints (p :: ps) rest := by
  simp [State.stagePoints, State.appendStaging, State.respond, List.replicate_succ]

/-- R153: while the points fit, each CAL_POINT appends its own and answers OK. -/
theorem run_points (ps : List (ℕ × ℕ)) (rest : List Word) (k : ℕ) (s : State)
    (hcmds : s.cmds = (ps.map pointInstr).map encode ++ rest) (hfit : s.stgCnt + ps.length ≤ 29) :
    core.run (ps.length + k) s = core.run k (s.stagePoints ps rest) := by
  induction ps generalizing s with
  | nil =>
    obtain rfl : s.cmds = rest := hcmds
    rw [State.stagePoints_nil, List.length_nil, Nat.zero_add]
  | cons p ps ih =>
    rw [List.length_cons] at hfit
    rw [List.length_cons, Nat.add_right_comm,
      run_succ_of_commandEffect hcmds (decode_encode_calPoint _ _)
        (.pointStaged _ _ (show s.stgCnt ≠ 29 by omega)),
      ih _ rfl (by simp [State.stgCnt] at hfit ⊢; omega)]
    exact congrArg (core.run k) (s.stagePoints_cons p ps _ rest)

/-- R105: the words of a `LOAD_CAL` line. -/
theorem assemble_loadCal {ps : List (ℕ × ℕ)} {ws : List Word} (h : assemble (.loadCal ps) = some ws) :
    ws = encode .calBegin :: ((ps.map pointInstr).map encode ++ [encode .calCommit]) := by
  unfold assemble at h
  split at h
  · simpa [expand] using (Option.some.inj h).symm
  · cases h

/-- R105, R152, R153, R156: CAL_BEGIN empties the staging table, the points fit it, and CAL_COMMIT builds it. -/
theorem run_loadCal {ps : List (ℕ × ℕ)} {s : State} {rest : List Word} {L : Lookup} (hlen : ps.length ≤ 29)
    (hcmds : s.cmds = encode .calBegin :: ((ps.map pointInstr).map encode ++ encode .calCommit :: rest))
    (hb : build (ps.map pointOf) = .ok L) :
    core.run (ps.length + 2) s =
      .next ((((s.emptyStaging.respond .ok).stagePoints ps rest).replaceTable (ps.map pointOf) L).respond .ok) :=
  calc core.run (ps.length + 2) s
    _ = core.run (ps.length + 1) (State.respond (State.emptyStaging { s with cmds := _ }) .ok) :=
      run_succ_of_commandEffect hcmds (by decide) .calBegin _
    _ = core.run 1 ((s.emptyStaging.respond .ok).stagePoints ps (encode .calCommit :: rest)) :=
      run_points ps _ 1 _ rfl (by simpa [State.stgCnt] using hlen)
    _ = _ := run_succ_of_commandEffect rfl (by decide) (.committed L rfl hb) 0

/-- Settles O26: the words are those of CAL_BEGIN, the points in order and CAL_COMMIT, and each of them answers OK. -/
theorem loadCalInstallsTable : Obligations.LoadCalInstallsTable := by
  intro ps s ws rest L hlen hasm hcmds hb
  rw [assemble_loadCal hasm, List.cons_append, List.append_assoc] at hcmds
  refine ⟨_, run_loadCal hlen hcmds hb, rfl, rfl, rfl, rfl, rfl, ?_⟩
  simp [State.stagePoints, List.replicate_succ' (n := ps.length), List.replicate_succ (n := ps.length + 1)]

end Sys2Proof.Machine
end

section
/-! ### The command word, format by format (30_encoding.md R91, R92) -/

namespace Sys2Proof.Machine

variable {w : Word} {o : BitVec 4}

/-! A word with its ignored bits zero, in each of R92's formats, is its `op` with its operand fields. -/

/-- Format N (R92): `op` alone. -/
def opWord (o : BitVec 4) : Word := o.setWidth 32 <<< 28

/-- Format B (R92): `op` and `imm8`. -/
def byteWord (o : BitVec 4) (b : Byte) : Word := opWord o ||| b.setWidth 32

/-- Format F (R92): `op` and `b`. -/
def flagWord (o : BitVec 4) (b : Bool) : Word := opWord o ||| (BitVec.ofBool b).setWidth 32

/-- Format P (R92): `op`, `code` and `freq`. -/
def pointWord (o : BitVec 4) (c : Code) (f : Freq) : Word := opWord o ||| (c.setWidth 32 <<< 16) ||| f.setWidth 32

theorem and_opMask (w : Word) : w &&& 0xF0000000#32 = opWord (opField w) := by
  ext j hj
  interval_cases j <;> simp [opWord, opField]

theorem and_byteMask (w : Word) : w &&& 0xF00000FF#32 = byteWord (opField w) (imm8Field w) := by
  ext j hj
  interval_cases j <;> simp [byteWord, opWord, opField, imm8Field]

theorem and_flagMask (w : Word) : w &&& 0xF0000001#32 = flagWord (opField w) (flagField w) := by
  ext j hj
  interval_cases j <;> simp [flagWord, opWord, opField, flagField]

theorem and_pointMask (w : Word) : w &&& 0xF7FFFFFF#32 = pointWord (opField w) (codeField w) (freqField w) := by
  ext j hj
  interval_cases j <;> simp [pointWord, opWord, opField, codeField, freqField]

@[simp] theorem opField_opWord (o : BitVec 4) : opField (opWord o) = o := by
  ext j hj
  interval_cases j <;> simp [opWord, opField]

@[simp] theorem opField_byteWord (o : BitVec 4) (b : Byte) : opField (byteWord o b) = o := by
  ext j hj
  interval_cases j <;> simp [byteWord, opWord, opField]

@[simp] theorem imm8Field_byteWord (o : BitVec 4) (b : Byte) : imm8Field (byteWord o b) = b := by
  ext j hj
  interval_cases j <;> simp [byteWord, opWord, imm8Field]

@[simp] theorem opField_flagWord (o : BitVec 4) (b : Bool) : opField (flagWord o b) = o := by
  ext j hj
  interval_cases j <;> simp [flagWord, opWord, opField]

@[simp] theorem flagField_flagWord (o : BitVec 4) (b : Bool) : flagField (flagWord o b) = b := by
  simp [flagWord, opWord, flagField]

@[simp] theorem opField_pointWord (o : BitVec 4) (c : Code) (f : Freq) : opField (pointWord o c f) = o := by
  ext j hj
  interval_cases j <;> simp [pointWord, opWord, opField]

@[simp] theorem codeField_pointWord (o : BitVec 4) (c : Code) (f : Freq) : codeField (pointWord o c f) = c := by
  ext j hj
  interval_cases j <;> simp [pointWord, opWord, codeField]

@[simp] theorem freqField_pointWord (o : BitVec 4) (c : Code) (f : Freq) : freqField (pointWord o c f) = f := by
  ext j hj
  interval_cases j <;> simp [pointWord, opWord, freqField]

theorem and_opMask_eq_iff : w &&& 0xF0000000#32 = opWord o ↔ opField w = o := by
  rw [and_opMask]
  exact ⟨fun h => by simpa using congrArg opField h, congrArg opWord⟩

theorem and_byteMask_eq_iff {b : Byte} :
    w &&& 0xF00000FF#32 = byteWord o b ↔ opField w = o ∧ imm8Field w = b := by
  rw [and_byteMask]
  constructor
  · exact fun h => ⟨by simpa using congrArg opField h, by simpa using congrArg imm8Field h⟩
  · rintro ⟨rfl, rfl⟩; rfl

theorem and_flagMask_eq_iff {b : Bool} :
    w &&& 0xF0000001#32 = flagWord o b ↔ opField w = o ∧ flagField w = b := by
  rw [and_flagMask]
  constructor
  · exact fun h => ⟨by simpa using congrArg opField h, by simpa using congrArg flagField h⟩
  · rintro ⟨rfl, rfl⟩; rfl

theorem and_pointMask_eq_iff {c : Code} {f : Freq} :
    w &&& 0xF7FFFFFF#32 = pointWord o c f ↔ opField w = o ∧ codeField w = c ∧ freqField w = f := by
  rw [and_pointMask]
  constructor
  · exact fun h => ⟨by simpa using congrArg opField h, by simpa using congrArg codeField h,
      by simpa using congrArg freqField h⟩
  · rintro ⟨rfl, rfl, rfl⟩; rfl

end Sys2Proof.Machine
end

section
/-! ### What a word decodes to (30_encoding.md R93, R101 to R106) -/

namespace Sys2Proof.Machine

variable {w : Word} {i : Instr}

/-- The fields of `w` that count for the command `i` are those of `i`: its row of R93 with its format in R92. -/
def FieldsAre (w : Word) : Instr → Prop
  | .wrFclo b => opField w = 0#4 ∧ imm8Field w = b
  | .wrFchi b => opField w = 1#4 ∧ imm8Field w = b
  | .wrResfilt b => opField w = 2#4 ∧ imm8Field w = b
  | .wrModevol b => opField w = 3#4 ∧ imm8Field w = b
  | .reset => opField w = 4#4
  | .setEnable b => opField w = 5#4 ∧ flagField w = b
  | .selVariant v => opField w = 6#4 ∧ flagField w = bitOfVariant v
  | .calBegin => opField w = 7#4
  | .calPoint c f => opField w = 8#4 ∧ codeField w = c ∧ freqField w = f
  | .calCommit => opField w = 9#4

/-- R104: `w` with its ignored bits zero is the canonical word of `i` exactly when its fields are those of `i`. -/
theorem and_usedBits_eq_encode_iff : w &&& usedBits i = encode i ↔ FieldsAre w i := by
  cases i with
  | wrFclo b => exact and_byteMask_eq_iff (o := 0#4)
  | wrFchi b => exact and_byteMask_eq_iff (o := 1#4)
  | wrResfilt b => exact and_byteMask_eq_iff (o := 2#4)
  | wrModevol b => exact and_byteMask_eq_iff (o := 3#4)
  | reset => exact and_opMask_eq_iff (o := 4#4)
  | setEnable b => exact and_flagMask_eq_iff (o := 5#4)
  | selVariant v => exact and_flagMask_eq_iff (o := 6#4) (b := bitOfVariant v)
  | calBegin => exact and_opMask_eq_iff (o := 7#4)
  | calPoint c f => exact and_pointMask_eq_iff (o := 8#4)
  | calCommit => exact and_opMask_eq_iff (o := 9#4)

theorem variantOfBit_bitOfVariant (v : Variant) : variantOfBit (bitOfVariant v) = v := by
  cases v <;> rfl

theorem bitOfVariant_variantOfBit (b : Bool) : bitOfVariant (variantOfBit b) = b := by
  cases b <;> rfl

theorem opField_eq_of_toNat {k : ℕ} (h : (opField w).toNat = k) : opField w = BitVec.ofNat 4 k := by
  rw [← h, BitVec.ofNat_toNat, BitVec.setWidth_eq]

theorem decode_of_fieldsAre (h : FieldsAre w i) : decode w = .ok i := by
  cases i with
  | wrFclo b => obtain ⟨hop, rfl⟩ := h; simp [decode, hop]
  | wrFchi b => obtain ⟨hop, rfl⟩ := h; simp [decode, hop]
  | wrResfilt b => obtain ⟨hop, rfl⟩ := h; simp [decode, hop]
  | wrModevol b => obtain ⟨hop, rfl⟩ := h; simp [decode, hop]
  | reset => simp [decode, show opField w = 4#4 from h]
  | setEnable b => obtain ⟨hop, rfl⟩ := h; simp [decode, hop]
  | selVariant v => obtain ⟨hop, hv⟩ := h; simp [decode, hop, hv, variantOfBit_bitOfVariant]
  | calBegin => simp [decode, show opField w = 7#4 from h]
  | calPoint c f => obtain ⟨hop, rfl, rfl⟩ := h; simp [decode, hop]
  | calCommit => simp [decode, show opField w = 9#4 from h]

theorem fieldsAre_of_decode (h : decode w = .ok i) : FieldsAre w i := by
  unfold decode at h
  split at h <;> cases h
  case h_1 hop => exact ⟨opField_eq_of_toNat hop, rfl⟩
  case h_2 hop => exact ⟨opField_eq_of_toNat hop, rfl⟩
  case h_3 hop => exact ⟨opField_eq_of_toNat hop, rfl⟩
  case h_4 hop => exact ⟨opField_eq_of_toNat hop, rfl⟩
  case h_5 hop => exact opField_eq_of_toNat hop
  case h_6 hop => exact ⟨opField_eq_of_toNat hop, rfl⟩
  case h_7 hop => exact ⟨opField_eq_of_toNat hop, (bitOfVariant_variantOfBit _).symm⟩
  case h_8 hop => exact opField_eq_of_toNat hop
  case h_9 hop => exact ⟨opField_eq_of_toNat hop, rfl, rfl⟩
  case h_10 hop => exact opField_eq_of_toNat hop

/-- R93, R101, R104: a word decodes to the command whose canonical word it is once its ignored bits are zero. -/
theorem decode_eq_ok_iff : decode w = .ok i ↔ w &&& usedBits i = encode i :=
  ⟨fun h => and_usedBits_eq_encode_iff.2 (fieldsAre_of_decode h),
    fun h => decode_of_fieldsAre (and_usedBits_eq_encode_iff.1 h)⟩

theorem canonicalWord (i : Instr) : Laws.CanonicalWord.Statement i := by
  cases i with
  | wrFclo b => exact Laws.CanonicalWord.wrFclo b
  | wrFchi b => exact Laws.CanonicalWord.wrFchi b
  | wrResfilt b => exact Laws.CanonicalWord.wrResfilt b
  | wrModevol b => exact Laws.CanonicalWord.wrModevol b
  | reset => exact Laws.CanonicalWord.reset
  | setEnable b => exact Laws.CanonicalWord.setEnable b
  | selVariant v => exact Laws.CanonicalWord.selVariant v
  | calBegin => exact Laws.CanonicalWord.calBegin
  | calPoint c f => exact Laws.CanonicalWord.calPoint c f
  | calCommit => exact Laws.CanonicalWord.calCommit

/-- R104: the used bits of a canonical word are all its bits. -/
theorem encode_and_usedBits (i : Instr) : encode i &&& usedBits i = encode i := by
  have hignored : encode i &&& ~~~usedBits i = 0#32 := canonicalWord i
  calc encode i &&& usedBits i
    _ = (encode i &&& usedBits i) ||| (encode i &&& ~~~usedBits i) := by rw [hignored, BitVec.or_zero]
    _ = encode i := by rw [← BitVec.and_or_distrib_left, BitVec.or_not_self, BitVec.and_allOnes]

/-- Settles O2: a word decodes to the command whose canonical word its used bits are, and a canonical word has no
others. -/
theorem decodeOfEncode : Obligations.DecodeOfEncode := by
  intro i
  exact decode_eq_ok_iff.2 (encode_and_usedBits i)

theorem expand_disassemble (i : Instr) : expand i.disassemble = [i] := by
  cases i with
  | setEnable b => cases b <;> rfl
  | _ => simp [Instr.disassemble, expand, pointInstr]

/-- R104, R106: a disassembled command is in range, and assembles to its canonical word. -/
theorem assemble_disassemble (i : Instr) : assemble i.disassemble = some [encode i] := by
  have hwf : i.disassemble.wellFormed = true := Laws.Instr.wellFormed_all i
  simp [assemble, hwf, expand_disassemble]

/-- Settles O3: the word with its ignored bits zero is the canonical word, which assembly writes and decoding reads. -/
theorem disassembleThenAssemble : Obligations.DisassembleThenAssemble := by
  intro w i hd
  have hcanonical : w &&& usedBits i = encode i := decode_eq_ok_iff.1 hd
  refine ⟨hcanonical.symm, ?_, ?_, ?_⟩
  · simp [disassembleWord, hd, Except.map]
  · rw [assemble_disassemble, hcanonical]
  · rw [hcanonical, decodeOfEncode i]

/-- R95: the code that WR_FCLO writes depends on bits 2:0 of the byte alone. -/
theorem fcWithLow_congr {b b' : Byte} (h : b &&& 7 = b' &&& 7) (fc : Code) : fcWithLow fc b = fcWithLow fc b' := by
  have hmask (x : Byte) : x.setWidth 11 &&& 0x007#11 = (x &&& 7).setWidth 11 := by
    rw [BitVec.setWidth_and]; rfl
  rw [fcWithLow, fcWithLow, hmask, hmask, h]

/-- Settles O5: a decoded word is read through the used bits alone, and WR_FCLO reads its byte through bits 2:0. -/
theorem ignoredBitsHaveNoEffect : Obligations.IgnoredBitsHaveNoEffect := by
  refine ⟨fun w w' i hd hsame => ?_, fun b b' s hlow => ?_⟩
  · rw [decode_eq_ok_iff, ← hsame]
    exact decode_eq_ok_iff.1 hd
  · rw [exec_of_commandEffect (.wrFclo b), exec_of_commandEffect (.wrFclo b'), fcWithLow_congr hlow]

end Sys2Proof.Machine
end

section
/-! ### Illegal words (30_encoding.md R102, R103) -/

namespace Sys2Proof.Machine

variable {w : Word}

/-- R91: `op` is the top four bits of the word. -/
theorem toNat_opField (w : Word) : (opField w).toNat = w.toNat / 2 ^ 28 := by
  rw [opField, BitVec.extractLsb'_toNat, Nat.shiftRight_eq_div_pow]
  omega

/-- R102, R103: the ten opcodes of R93 decode, and no others. -/
theorem decode_eq_error_iff : decode w = .error .illegalCommand ↔ 10 ≤ (opField w).toNat := by
  unfold decode
  split
  case h_11 => exact iff_of_true rfl (by grind)
  all_goals exact iff_of_false nofun (by omega)

/-- Settles O6: an illegal word takes the illegal branch of the step, which answers and keeps the state. -/
theorem illegalOpcodeAnswersFifteen : Obligations.IllegalOpcodeAnswersFifteen := by
  intro s w rest hcmds
  have hillegal : decode w = .error .illegalCommand ↔ 10 ≤ w.toNat / 2 ^ 28 := by
    rw [decode_eq_error_iff, toNat_opField]
  exact ⟨hillegal, fun hop => step_of_stepEffect (.illegal w rest hcmds (hillegal.2 hop)), rfl⟩

end Sys2Proof.Machine
end

section
/-! ### `SET_FC` (30_encoding.md R105, 42_filter_register_file.md R177) -/

namespace Sys2Proof.Machine

/-- R95, R96, R105: the halves `c & 7` and `c >> 3` make up the code `c`. -/
theorem fcWithHigh_fcWithLow (fc : Code) (c : ℕ) :
    fcWithHigh (fcWithLow fc (BitVec.ofNat 8 (c &&& 7))) (BitVec.ofNat 8 (c >>> 3)) = BitVec.ofNat 11 c := by
  refine BitVec.eq_of_getLsbD_eq fun j hj => ?_
  rw [fcWithHigh_bit _ _ _ hj, fcWithLow_bit _ _ _ hj]
  simp only [BitVec.getLsbD_ofNat]
  split
  · have h7 : (7 : ℕ).testBit j = true := by interval_cases j <;> rfl
    simp [hj, h7, show j < 8 by omega]
  · simp [hj, show j - 3 < 8 by omega, show 3 + (j - 3) = j by omega]

/-- R105: the words of a `SET_FC` line. -/
theorem assemble_setFc {c : ℕ} (hc : c < 2048) : assemble (.setFc c) =
    some [encode (.wrFclo (BitVec.ofNat 8 (c &&& 7))), encode (.wrFchi (BitVec.ofNat 8 (c >>> 3)))] := by
  simp [assemble, AsmLine.wellFormed, expand, hc]

/-- Settles O18: WR_FCLO and WR_FCHI run in turn, and the two halves they write make up `c`. -/
theorem setFcSetsCode : Obligations.SetFcSetsCode := by
  intro c s rest hc
  refine ⟨_, assemble_setFc hc, rfl, fun hcmds => ?_⟩
  have hlow := run_succ_of_commandEffect hcmds (decodeOfEncode _) (.wrFclo _) 1
  refine ⟨_, hlow.trans (run_succ_of_commandEffect rfl (decodeOfEncode _) (.wrFchi _) 0), ?_, rfl, by simp⟩
  exact (congrArg BitVec.toNat (fcWithHigh_fcWithLow s.regs.fc c)).trans (Nat.mod_eq_of_lt hc)

end Sys2Proof.Machine
end

section
/-! ### The spec's own words (95_test_vectors.md 2.1) -/

namespace Sys2Proof.Machine

/-- Settles O1: the decoder evaluates on each of the ten words. -/
theorem specWordsDecode : Obligations.SpecWordsDecode := by
  unfold Obligations.SpecWordsDecode
  decide

end Sys2Proof.Machine
end

section
/-! ### The text of an assembler line (30_encoding.md R104, R105) -/

namespace Sys2Proof.Machine

variable {cs m x : List Char}

/-! #### Numbers -/

theorem digitsValue_append (base acc : ℕ) (xs ys : List Char) :
    digitsValue base acc (xs ++ ys) = (digitsValue base acc xs).bind fun a => digitsValue base a ys := by
  induction xs generalizing acc with
  | nil => rfl
  | cons c xs ih =>
    simp only [List.cons_append, digitsValue, ih, Option.bind_assoc]

theorem digitValue_digitChar {d : ℕ} (h : d < 10) : digitValue 10 d.digitChar = some d := by
  interval_cases d <;> rfl

/-- The decimal digits of `n` have the value `n`: its last digit comes after the digits of `n / 10`. -/
theorem digitsValue_numberText (n : ℕ) : digitsValue 10 0 (numberText n) = some n := by
  induction n using Nat.strong_induction_on with
  | _ n ih =>
    by_cases h : n < 10
    · simp [numberText, Nat.toDigits_of_lt_base h, digitsValue, digitValue_digitChar h]
    · have hdigits : numberText n = numberText (n / 10) ++ [(n % 10).digitChar] :=
        Nat.toDigits_of_base_le (by decide) (by omega)
      rw [hdigits, digitsValue_append, ih (n / 10) (by omega)]
      simp [digitsValue, digitValue_digitChar (Nat.mod_lt n (by decide : 10 > 0)), Nat.div_add_mod']

theorem isDigit_of_mem_numberText {n : ℕ} {c : Char} (h : c ∈ numberText n) : c.isDigit = true :=
  Nat.isDigit_of_mem_toDigits (by decide) (by decide) h

theorem numberText_ne_nil (n : ℕ) : numberText n ≠ [] := Nat.toDigits_ne_nil

/-- Without an `x`, the text is read as decimal digits. -/
theorem readNumber_of_not_mem_x (hne : cs ≠ []) (hx : 'x' ∉ cs) : readNumber cs = digitsValue 10 0 cs := by
  unfold readNumber
  split
  · contradiction
  · simp at hx
  · rfl

@[simp] theorem readNumber_numberText (n : ℕ) : readNumber (numberText n) = some n := by
  have hx : 'x' ∉ numberText n := fun h => absurd (isDigit_of_mem_numberText h) (by decide)
  rw [readNumber_of_not_mem_x (numberText_ne_nil n) hx, digitsValue_numberText]

@[simp] theorem readVariant_variantText (v : Variant) : readVariant (variantText v) = some v := by
  cases v <;> rfl

/-! #### Tokens -/

/-- A character that neither separates tokens nor is one. -/
def isWordChar (c : Char) : Bool := !(c == ' ' || c == ',' || c == '(' || c == ')')

/-- Characters that a line holds as one token. -/
abbrev IsWord (cs : List Char) : Prop := cs ≠ [] ∧ cs.all isWordChar = true

theorem tokens_wordChar {c : Char} (hc : isWordChar c = true) (acc rest : List Char) :
    tokens acc (c :: rest) = tokens (c :: acc) rest := by
  simp only [isWordChar, Bool.not_eq_true', Bool.or_eq_false_iff, beq_eq_false_iff_ne] at hc
  obtain ⟨⟨⟨hspace, hcomma⟩, hlpar⟩, hrpar⟩ := hc
  rw [tokens] <;> assumption

theorem tokens_wordChars (h : cs.all isWordChar = true) (acc rest : List Char) :
    tokens acc (cs ++ rest) = tokens (cs.reverse ++ acc) rest := by
  induction cs generalizing acc with
  | nil => rfl
  | cons c cs ih =>
    rw [List.all_cons, Bool.and_eq_true] at h
    rw [List.cons_append, tokens_wordChar h.1, ih h.2, List.reverse_cons, List.append_assoc, List.singleton_append]

theorem tokens_word (h : IsWord cs) : tokens [] cs = [.word cs] := by
  have htokens := tokens_wordChars h.2 [] []
  simpa [tokens, flush, h.1] using htokens

theorem tokens_word_space (h : IsWord cs) (rest : List Char) :
    tokens [] (cs ++ ' ' :: rest) = .word cs :: tokens [] rest := by
  simp [tokens_wordChars h.2, tokens, flush, h.1]

theorem tokens_word_comma (h : IsWord cs) (rest : List Char) :
    tokens [] (cs ++ ',' :: rest) = .word cs :: .comma :: tokens [] rest := by
  simp [tokens_wordChars h.2, tokens, flush, h.1]

theorem tokens_word_rpar (h : IsWord cs) (rest : List Char) :
    tokens [] (cs ++ ')' :: rest) = .word cs :: .rpar :: tokens [] rest := by
  simp [tokens_wordChars h.2, tokens, flush, h.1]

theorem isWord_numberText (n : ℕ) : IsWord (numberText n) := by
  refine ⟨numberText_ne_nil n, List.all_eq_true.2 fun c hc => ?_⟩
  have hdigit := isDigit_of_mem_numberText hc
  by_contra hword
  simp only [isWordChar, Bool.not_eq_true, Bool.not_eq_false', Bool.or_eq_true, beq_iff_eq] at hword
  rcases hword with ((rfl | rfl) | rfl) | rfl <;> exact absurd hdigit (by decide)

theorem isWord_variantText (v : Variant) : IsWord (variantText v) := by
  cases v <;> decide

/-! #### Points -/

/-- The tokens of `(c,f)`. -/
def pointTokens (p : ℕ × ℕ) : List Token :=
  [.lpar, .word (numberText p.1), .comma, .word (numberText p.2), .rpar]

theorem tokens_pointText (p : ℕ × ℕ) (rest : List Char) :
    tokens [] (pointText p ++ rest) = pointTokens p ++ tokens [] rest := by
  have htext : pointText p ++ rest = '(' :: (numberText p.1 ++ ',' :: (numberText p.2 ++ ')' :: rest)) := by
    simp [pointText]
  rw [htext, tokens, tokens_word_comma (isWord_numberText _), tokens_word_rpar (isWord_numberText _)]
  rfl

theorem tokens_points (acc : List Char) (ps : List (ℕ × ℕ)) :
    tokens acc (ps.flatMap fun p => ' ' :: pointText p) = flush acc ++ ps.flatMap pointTokens := by
  induction ps generalizing acc with
  | nil => simp [tokens]
  | cons p ps ih =>
    rw [List.flatMap_cons, List.cons_append, tokens, tokens_pointText, ih]
    simp [flush]

theorem readPoints_pointTokens_append (p q : ℕ × ℕ) (ts : List Token) :
    readPoints (pointTokens p ++ (pointTokens q ++ ts)) = (readPoints (pointTokens q ++ ts)).map (p :: ·) := by
  simp [pointTokens, readPoints]

theorem readPoints_pointTokens {ps : List (ℕ × ℕ)} (h : ps ≠ []) :
    readPoints (ps.flatMap pointTokens) = some ps := by
  induction ps with
  | nil => contradiction
  | cons p ps ih =>
    cases ps with
    | nil => simp [pointTokens, readPoints]
    | cons q ps =>
      have hrest := ih (List.cons_ne_nil q ps)
      rw [List.flatMap_cons] at hrest
      rw [List.flatMap_cons, List.flatMap_cons, readPoints_pointTokens_append, hrest, Option.map_some]

/-! #### Lines -/

theorem readLine_of_word {l : AsmLine} (hm : IsWord m) (hread : readTokens [.word m] = some l) :
    readLine m = some l := by
  rw [readLine, tokens_word hm, hread]

theorem readLine_of_operand {l : AsmLine} (hm : IsWord m) (hx : IsWord x)
    (hread : readTokens [.word m, .word x] = some l) : readLine (m ++ ' ' :: x) = some l := by
  rw [readLine, tokens_word_space hm, tokens_word hx, hread]

theorem lineText_calPoint (c f : ℕ) :
    lineText (.calPoint c f) = "CAL_POINT ".toList ++ numberText c ++ ", ".toList ++ numberText f := rfl

theorem lineText_loadCal (ps : List (ℕ × ℕ)) :
    lineText (.loadCal ps) = "LOAD_CAL".toList ++ ps.flatMap fun p => ' ' :: pointText p := rfl

theorem readLine_lineText_calPoint (c f : ℕ) : readLine (lineText (.calPoint c f)) = some (.calPoint c f) := by
  have htext : lineText (.calPoint c f) =
      "CAL_POINT".toList ++ ' ' :: (numberText c ++ ',' :: ' ' :: numberText f) := by
    simp [lineText_calPoint]
  rw [htext, readLine, tokens_word_space (by decide), tokens_word_comma (isWord_numberText c), tokens,
    tokens_word (isWord_numberText f)]
  simp [readTokens, flush]

theorem readLine_lineText_loadCal {ps : List (ℕ × ℕ)} (h : ps ≠ []) :
    readLine (lineText (.loadCal ps)) = some (.loadCal ps) := by
  obtain ⟨p, qs, rfl⟩ := List.exists_cons_of_ne_nil h
  have htokens : tokens [] (lineText (.loadCal (p :: qs))) =
      .word "LOAD_CAL".toList :: (p :: qs).flatMap pointTokens := by
    rw [lineText_loadCal, tokens_wordChars (by decide), tokens_points]
    rfl
  have hread : readTokens (.word "LOAD_CAL".toList :: (p :: qs).flatMap pointTokens) =
      (readPoints ((p :: qs).flatMap pointTokens)).map .loadCal := by
    simp [readTokens, pointTokens]
  rw [readLine, htokens, hread, readPoints_pointTokens h]
  rfl

/-- Settles O4, by the shape of the line: a mnemonic, a mnemonic with one operand, CAL_POINT, LOAD_CAL. -/
theorem lineTextReadsBack : Obligations.LineTextReadsBack := by
  intro l hl
  cases l with
  | wrFclo n =>
    exact readLine_of_operand (m := "WR_FCLO".toList) (by decide) (isWord_numberText n) (by simp [readTokens])
  | wrFchi n =>
    exact readLine_of_operand (m := "WR_FCHI".toList) (by decide) (isWord_numberText n) (by simp [readTokens])
  | wrResfilt n =>
    exact readLine_of_operand (m := "WR_RESFILT".toList) (by decide) (isWord_numberText n) (by simp [readTokens])
  | wrModevol n =>
    exact readLine_of_operand (m := "WR_MODEVOL".toList) (by decide) (isWord_numberText n) (by simp [readTokens])
  | reset => exact readLine_of_word (m := "RESET".toList) (by decide) (by simp [readTokens])
  | setEnable n =>
    exact readLine_of_operand (m := "SET_ENABLE".toList) (by decide) (isWord_numberText n) (by simp [readTokens])
  | selVariant v =>
    exact readLine_of_operand (m := "SEL_VARIANT".toList) (by decide) (isWord_variantText v) (by simp [readTokens])
  | calBegin => exact readLine_of_word (m := "CAL_BEGIN".toList) (by decide) (by simp [readTokens])
  | calPoint c f => exact readLine_lineText_calPoint c f
  | calCommit => exact readLine_of_word (m := "CAL_COMMIT".toList) (by decide) (by simp [readTokens])
  | setFc n =>
    exact readLine_of_operand (m := "SET_FC".toList) (by decide) (isWord_numberText n) (by simp [readTokens])
  | loadCal ps =>
    have hne : ps ≠ [] := by
      rintro rfl
      cases hl
    exact readLine_lineText_loadCal hne

end Sys2Proof.Machine
end

section
/-! ### Validation and runs (40_spline_interpolator.md R122, R124, R125) -/

namespace Sys2Proof.Machine

/-! #### `Validate` -/

theorem sortedCodes_iff_getElem (T : Table) :
    sortedCodes T = true ↔ ∀ i, ∀ h : i + 1 < T.length, T[i].code.toNat ≤ T[i + 1].code.toNat := by
  have : Trans (fun p q : Point => p.code.toNat ≤ q.code.toNat) (fun p q : Point => p.code.toNat ≤ q.code.toNat)
      (fun p q : Point => p.code.toNat ≤ q.code.toNat) := ⟨le_trans⟩
  exact (sortedCodes_iff_pairwise T).trans (List.isChain_iff_pairwise.symm.trans List.isChain_iff_getElem)

theorem coversDomain_iff (T : Table) :
    coversDomain T = true ↔ T.head?.map Point.code = some 0 ∧ T.getLast?.map Point.code = some 2047 := by
  simp only [coversDomain, Bool.and_eq_true, decide_eq_true_eq]

/-- Settles O37: each test of `Validate` is reached exactly when the tests before it pass. -/
theorem validateReportsFirstCause : Obligations.ValidateReportsFirstCause := by
  intro T
  refine ⟨fun hlen => if_pos hlen, fun hlen => ⟨fun ⟨i, h, hlt⟩ => ?_, fun hle =>
    ⟨fun hends => ?_, fun h0 h2047 => ?_⟩⟩⟩
  · have hs : sortedCodes T = false :=
      Bool.eq_false_iff.2 fun hs => absurd ((sortedCodes_iff_getElem T).1 hs i h) (not_le.2 hlt)
    simp [validate, Config.nptsMin, not_lt.2 hlen, hs]
  · have hd : coversDomain T = false :=
      Bool.eq_false_iff.2 fun hd => not_and_or.2 hends ((coversDomain_iff T).1 hd)
    simp [validate, Config.nptsMin, not_lt.2 hlen, (sortedCodes_iff_getElem T).2 hle, hd]
  · exact (validate_eq_none_iff T).2
      ⟨hlen, (sortedCodes_iff_getElem T).2 hle, (coversDomain_iff T).2 ⟨h0, h2047⟩⟩

/-! #### Where `Runs` cuts -/

/-- Inside a run no two consecutive codes are equal (R124). -/
theorem run_isChain_ne (T : Table) : ∀ r ∈ runs T, r.IsChain fun p q => p.code ≠ q.code := by
  induction T with
  | nil => simp [runs]
  | cons p rest ih =>
    cases rest with
    | nil => simp [runs]
    | cons q rest =>
      obtain ⟨r, rs, hr⟩ := runs_cons q rest
      rw [hr] at ih
      simp only [runs, hr]
      split
      · exact List.forall_mem_cons.2 ⟨List.isChain_singleton p, ih⟩
      · rename_i hne
        obtain ⟨hqr, hrs⟩ := List.forall_mem_cons.1 ih
        exact List.forall_mem_cons.2 ⟨List.isChain_cons_cons.2 ⟨hne, hqr⟩, hrs⟩

/-- The code that ends `r` begins `r'`: the ranges of two consecutive runs share that end (R125). -/
def Touches (r r' : Table) : Prop := r.getLast?.map Point.code = r'.head?.map Point.code

/-- A cut stands between two points of equal code only (R124). -/
theorem runs_isChain_touches (T : Table) : (runs T).IsChain Touches := by
  induction T with
  | nil => exact List.IsChain.nil
  | cons p rest ih =>
    cases rest with
    | nil => exact List.isChain_singleton _
    | cons q rest =>
      obtain ⟨r, rs, hr⟩ := runs_cons q rest
      rw [hr] at ih
      simp only [runs, hr]
      split
      · rename_i heq
        exact List.isChain_cons_cons.2 ⟨congrArg some heq, ih⟩
      · cases rs with
        | nil => exact List.isChain_singleton _
        | cons r' rs =>
          obtain ⟨htouch, hrs⟩ := List.isChain_cons_cons.1 ih
          refine List.isChain_cons_cons.2 ⟨?_, hrs⟩
          rwa [Touches, List.getLast?_cons_cons]

theorem runs_touch (T : Table) (k : ℕ) (h : k + 1 < (runs T).length) :
    ((runs T)[k]).getLast?.map Point.code = ((runs T)[k + 1]).head?.map Point.code :=
  List.isChain_iff_getElem.1 (runs_isChain_touches T) k h

/-- Settles O38: what is joined, what a run is made of and where two runs meet, each by its own lemma. -/
theorem runsCutAtEqualCodes : Obligations.RunsCutAtEqualCodes := fun T =>
  ⟨flatten_runs T, fun _ => ne_nil_of_mem_runs, fun r hr => List.isChain_iff_getElem.1 (run_isChain_ne T r hr),
    runs_touch T, run_pairwise_lt⟩

/-! #### What the runs cover -/

theorem head?_head?_runs {T : Table} {p : Point} (h : T.head? = some p) :
    ∃ r, (runs T).head? = some r ∧ r.head? = some p := by
  obtain ⟨rest, rfl⟩ := List.head?_eq_some_iff.1 h
  obtain ⟨r, rs, hr⟩ := runs_cons p rest
  exact ⟨p :: r, by rw [hr]; rfl, rfl⟩

theorem getLast?_getLast?_runs {T : Table} {q : Point} (h : T.getLast? = some q) :
    ∃ r, (runs T).getLast? = some r ∧ r.getLast? = some q := by
  have hne : runs T ≠ [] := fun hnil => by
    have hT := flatten_runs T
    rw [hnil] at hT
    simp [← hT] at h
  obtain ⟨rs, r, hr⟩ : ∃ rs r, runs T = rs ++ [r] := ⟨_, _, (List.dropLast_append_getLast hne).symm⟩
  have hrne : r ≠ [] := ne_nil_of_mem_runs (T := T) (by simp [hr])
  refine ⟨r, by simp [hr], ?_⟩
  rw [← flatten_runs T, hr] at h
  simpa [List.getLast?_append, List.getLast?_eq_some_getLast hrne] using h

/-- Two consecutive points of one run after the other are consecutive in the runs joined. -/
theorem pair_in_flatten_of_consecutive {R : List Table} {k : ℕ} (h : k + 1 < R.length) {p q : Point}
    (hp : R[k].getLast? = some p) (hq : R[k + 1].head? = some q) : [p, q] <:+: R.flatten := by
  obtain ⟨A, hA⟩ := List.getLast?_eq_some_iff.1 hp
  obtain ⟨B, hB⟩ := List.head?_eq_some_iff.1 hq
  have hruns : [R[k], R[k + 1]] <:+: R :=
    ⟨R.take k, R.drop (k + 2), by
      rw [List.append_assoc, List.cons_append, List.singleton_append, ← List.drop_eq_getElem_cons,
        ← List.drop_eq_getElem_cons, List.take_append_drop]⟩
  have hpoints : [p, q] <:+: [R[k], R[k + 1]].flatten := ⟨A, B, by simp [hA, hB]⟩
  exact hpoints.trans hruns.flatten

theorem exists_getElem_of_pair {T : Table} {p q : Point} (h : [p, q] <:+: T) :
    ∃ i, ∃ h : i + 1 < T.length, T[i] = p ∧ T[i + 1] = q := by
  obtain ⟨A, B, rfl⟩ := h
  exact ⟨A.length, by simp, by simp, by simp⟩

/-- R125: a code in the ranges of two runs is the code of two consecutive points, the last of the earlier run and the
first of the run after it. -/
theorem repeated_of_in_two_runs {T : Table} (hT : sortedCodes T = true) {k l : ℕ} (hl : l < (runs T).length)
    (hkl : k < l) {c : Code} {q p' : Point} (hq : ((runs T)[k]).getLast? = some q)
    (hp' : ((runs T)[l]).head? = some p') (hcq : c.toNat ≤ q.code.toNat) (hpc' : p'.code.toNat ≤ c.toNat) :
    ∃ i, ∃ h : i + 1 < T.length, T[i].code = c ∧ T[i + 1].code = c := by
  have hsorted := (sortedCodes_iff_pairwise T).1 hT
  rw [← flatten_runs T, List.pairwise_flatten, List.pairwise_iff_getElem (l := runs T)] at hsorted
  have hqp' : q.code.toNat ≤ p'.code.toNat :=
    hsorted.2 k l _ hl hkl q (List.mem_of_getLast? hq) p' (List.mem_of_head? hp')
  have hqc : q.code = c := BitVec.eq_of_toNat_eq (by omega)
  have hnext : ((runs T)[k + 1]).head?.map Point.code = some c := by
    rw [← runs_touch T k (by omega), hq, Option.map_some, hqc]
  obtain ⟨x, hx, hxc⟩ := Option.map_eq_some_iff.1 hnext
  have hpair := pair_in_flatten_of_consecutive (by omega) hq hx
  rw [flatten_runs] at hpair
  obtain ⟨i, h, hi, hi'⟩ := exists_getElem_of_pair hpair
  exact ⟨i, h, by rw [hi, hqc], by rw [hi', hxc]⟩

/-- Settles O39: the runs meet, begin and end where the table does, and overlap only where they meet. -/
theorem runsCoverTheDomain : Obligations.RunsCoverTheDomain := by
  intro T hT
  obtain ⟨-, hsorted, hcovers⟩ := (validate_eq_none_iff T).1 hT
  obtain ⟨h0, h2047⟩ := (coversDomain_iff T).1 hcovers
  obtain ⟨p, hp, hp0⟩ := Option.map_eq_some_iff.1 h0
  obtain ⟨q, hq, hq2047⟩ := Option.map_eq_some_iff.1 h2047
  obtain ⟨r, hr, hrp⟩ := head?_head?_runs hp
  obtain ⟨r', hr', hrq'⟩ := getLast?_getLast?_runs hq
  refine ⟨runs_touch T, ⟨r, p, hr, hrp, hp0⟩, ⟨r', q, hr', hrq', hq2047⟩, fun c => ?_, ?_⟩
  · have hcq : c.toNat ≤ q.code.toNat := by rw [hq2047]; exact Nat.le_of_lt_succ c.isLt
    exact exists_run_covering hsorted hp hq (by simp [hp0]) hcq
  · intro k l _ hl hkl c _ _ _ _ _ hq hp' _ _ hcq hpc' _
    exact repeated_of_in_two_runs hsorted hl hkl hq hp' hcq hpc'

end Sys2Proof.Machine
end

section
/-! ### `Quant` and the enclosure of π (40_spline_interpolator.md R134, R135) -/

namespace Sys2Proof.Machine

/-! #### R135's enclosure against Machin's formula -/

theorem pi60Lo_lt_piLo : pi60Lo < piLo 22 := by
  norm_num [pi60Lo, piLo, arctanInvSum, Finset.sum_range_succ]

theorem piHi_lt_pi60Hi : piHi 22 < pi60Hi := by
  norm_num [pi60Hi, piHi, arctanInvSum, Finset.sum_range_succ]

theorem pi60Lo_lt_pi : ((pi60Lo : ℚ) : ℝ) < Real.pi :=
  (Rat.cast_lt.2 pi60Lo_lt_piLo).trans_le (piLo_le_pi 22)

theorem pi_lt_pi60Hi : Real.pi < ((pi60Hi : ℚ) : ℝ) :=
  (pi_le_piHi 22).trans_lt (Rat.cast_lt.2 piHi_lt_pi60Hi)

/-- Settles O45: the enclosure number 22 of Machin's sequence lies inside R135's. -/
theorem sixtyDecimalsEnclosePi : Obligations.SixtyDecimalsEnclosePi :=
  ⟨pi60Lo_lt_pi, pi_lt_pi60Hi, by norm_num [pi60Lo, pi60Hi]⟩

/-! #### Rounding to nearest with the real number π -/

/-- An enclosure of π that decides the rounding of `SCALE`·s decides it as π itself does. -/
theorem roundWithin_nearest {lo hi s : ℚ} {n : ℤ} (hs : 0 < s) (hlo : (lo : ℝ) ≤ Real.pi) (hhi : Real.pi ≤ (hi : ℝ))
    (h : roundWithin lo hi s = some n) : |(n : ℝ) - Real.pi * (32768 / 15625) * (s : ℝ)| < 1 / 2 := by
  rw [roundWithin_eq] at h
  split at h
  · rename_i hc
    obtain rfl := Option.some.inj h
    obtain ⟨hlow, hhigh⟩ := hc
    generalize ⌊scaled lo s + 1 / 2⌋ = n at hlow hhigh ⊢
    rw [← Rat.cast_lt (K := ℝ), scaled_cast] at hlow hhigh
    have hk : (0 : ℝ) ≤ ((s * Config.scaleOverPi : ℚ) : ℝ) := by
      exact_mod_cast (mul_pos hs (by norm_num [Config.scaleOverPi])).le
    have hπlo := mul_le_mul_of_nonneg_left hlo hk
    have hπhi := mul_le_mul_of_nonneg_left hhi hk
    have hscale : ((s * Config.scaleOverPi : ℚ) : ℝ) * Real.pi = Real.pi * (32768 / 15625) * (s : ℝ) := by
      simp only [Config.scaleOverPi]; push_cast; ring
    rw [hscale] at hπlo hπhi
    push_cast at hlow hhigh hπlo hπhi
    rw [abs_lt]
    constructor <;> linarith
  · cases h

theorem quantPos_nearest (s : ℚ) (hs : 0 < s) :
    |((quantPos s hs : ℤ) : ℝ) - Real.pi * (32768 / 15625) * (s : ℝ)| < 1 / 2 := by
  unfold quantPos
  split
  · rename_i n h
    exact roundWithin_nearest hs pi60Lo_lt_pi.le pi_lt_pi60Hi.le h
  · exact roundWithin_nearest hs (piLo_le_pi _) (pi_le_piHi _) (Option.some_get _).symm

theorem quant_of_pos {s : ℚ} (hs : 0 < s) : quant s = quantPos s hs := dif_pos hs

@[simp] theorem quant_zero : quant 0 = 0 := by simp [quant]

theorem quant_neg (s : ℚ) : quant (-s) = -quant s := by
  rcases lt_trichotomy s 0 with hs | rfl | hs
  · have hs' : 0 < -s := neg_pos.2 hs
    rw [quant_of_pos hs', quant, dif_neg hs.not_gt, dif_pos hs', neg_neg]
  · simp
  · have hs' : 0 < - -s := by rwa [neg_neg]
    rw [quant_of_pos hs, quant, dif_neg (neg_neg_of_pos hs).not_gt, dif_pos hs']
    simp only [neg_neg]

theorem quant_nearest (s : ℚ) : |((quant s : ℤ) : ℝ) - Real.pi * (32768 / 15625) * (s : ℝ)| < 1 / 2 := by
  rcases lt_trichotomy s 0 with hs | rfl | hs
  · have h := quantPos_nearest (-s) (neg_pos.2 hs)
    rw [← quant_of_pos, quant_neg, ← abs_neg] at h
    convert h using 2
    push_cast; ring
  · norm_num
  · rw [quant_of_pos hs]; exact quantPos_nearest s hs

/-- Settles O46: each enclosure `quant` uses holds π, and the sign is taken out first. -/
theorem quantIsNearestInteger : Obligations.QuantIsNearestInteger := fun s => ⟨quant_nearest s, quant_neg s⟩

end Sys2Proof.Machine
end

section
/-! ### The moments of a run (40_spline_interpolator.md R127) -/

namespace Sys2Proof.Machine

/-- Codes in increasing order are increasing abscissas. -/
theorem xOf_lt_xOf {p q : Point} : xOf p < xOf q ↔ p.code.toNat < q.code.toNat := Nat.cast_lt

/-! #### One row of the system -/

/-- R127's right-hand side at `q`: six times the change of slope there. -/
def slopeChange (p q r : Point) : ℚ :=
  6 * ((yOf r - yOf q) / (xOf r - xOf q) - (yOf q - yOf p) / (xOf q - xOf p))

/-- R127's equation at the point `q` between `p` and `r`, for the moments `a`, `b`, `c` of the three. -/
def MomentRow (p q r : Point) (a b c : ℚ) : Prop :=
  (xOf q - xOf p) * a + 2 * ((xOf q - xOf p) + (xOf r - xOf q)) * b + (xOf r - xOf q) * c = slopeChange p q r

/-- R127's equation at every interior point of `run`. -/
def SolvesRows (run : Table) (Ms : List ℚ) : Prop :=
  ∀ i, ∀ h : i + 2 < run.length,
    MomentRow run[i] run[i + 1] run[i + 2] (Ms.getD i 0) (Ms.getD (i + 1) 0) (Ms.getD (i + 2) 0)

theorem solvesRows_pair (p q : Point) (Ms : List ℚ) : SolvesRows [p, q] Ms := fun i h => by simp at h

theorem solvesRows_cons_cons_cons (p q r : Point) (rest : Table) (a b : ℚ) (Ms : List ℚ) :
    SolvesRows (p :: q :: r :: rest) (a :: b :: Ms) ↔
      MomentRow p q r a b (Ms.getD 0 0) ∧ SolvesRows (q :: r :: rest) (b :: Ms) := by
  constructor
  · exact fun h => ⟨h 0 (by simp), fun i hi => h (i + 1) (Nat.succ_lt_succ hi)⟩
  · rintro ⟨h0, h⟩ (_ | i) hi
    · exact h0
    · exact h i (Nat.lt_of_succ_lt_succ hi)

/-! #### The elimination -/

/-- The pivot of the elimination in `momentsFrom`. -/
def pivot (c : ℚ) (p q r : Point) : ℚ := 2 * ((xOf q - xOf p) + (xOf r - xOf q)) - (xOf q - xOf p) * c

/-- The row at `q` after the elimination is M_q = `nextD` − `nextC`·M_r. -/
def nextC (c : ℚ) (p q r : Point) : ℚ := (xOf r - xOf q) / pivot c p q r

/-- The right-hand side that goes with `nextC`. -/
def nextD (c d : ℚ) (p q r : Point) : ℚ := (slopeChange p q r - (xOf q - xOf p) * d) / pivot c p q r

theorem momentsFrom_cons (c d : ℚ) (p q r : Point) (rest : Table) :
    momentsFrom c d p q (r :: rest) =
      (d - c * (momentsFrom (nextC c p q r) (nextD c d p q r) q r rest).1,
        (momentsFrom (nextC c p q r) (nextD c d p q r) q r rest).1 ::
          (momentsFrom (nextC c p q r) (nextD c d p q r) q r rest).2) := rfl

/-- The range of the coefficients `c` that the elimination meets; it stays there by diagonal dominance (R127). -/
def EliminationCoeff (c : ℚ) : Prop := 0 ≤ c ∧ c ≤ 1

theorem two_mul_lt_pivot {c : ℚ} (hc : EliminationCoeff c) {p q r : Point} (hpq : xOf p < xOf q) :
    2 * (xOf r - xOf q) < pivot c p q r := by
  obtain ⟨-, hc1⟩ := hc
  simp only [pivot]
  nlinarith [sub_pos.2 hpq]

theorem pivot_pos {c : ℚ} (hc : EliminationCoeff c) {p q r : Point} (hpq : xOf p < xOf q) (hqr : xOf q < xOf r) :
    0 < pivot c p q r := by
  linarith [two_mul_lt_pivot hc hpq (r := r)]

theorem eliminationCoeff_next {c : ℚ} (hc : EliminationCoeff c) {p q r : Point} (hpq : xOf p < xOf q)
    (hqr : xOf q < xOf r) : EliminationCoeff (nextC c p q r) := by
  have hpos := pivot_pos hc hpq hqr
  have hh : 0 < xOf r - xOf q := sub_pos.2 hqr
  exact ⟨(div_pos hh hpos).le, (div_le_one hpos).2 (by linarith [two_mul_lt_pivot hc hpq (r := r)])⟩

/-- Where the row above has been eliminated to a + c·b = d, the row at `q` says the next such equation. -/
theorem momentRow_iff_eliminated {c d a b e : ℚ} (hc : EliminationCoeff c) {p q r : Point} (hpq : xOf p < xOf q)
    (hqr : xOf q < xOf r) (habove : a + c * b = d) :
    MomentRow p q r a b e ↔ b + nextC c p q r * e = nextD c d p q r := by
  have hpos := pivot_pos hc hpq hqr
  rw [nextC, nextD, eq_div_iff hpos.ne', add_mul, mul_right_comm, div_mul_cancel₀ _ hpos.ne', MomentRow, ← habove,
    pivot]
  constructor <;> intro h <;> linear_combination h

/-- The elimination answers the one solution of the rows below an eliminated row with last moment 0. -/
theorem eq_momentsFrom_iff {c d : ℚ} {p q : Point} {rest : Table} (hc : EliminationCoeff c)
    (hrun : (p :: q :: rest).Pairwise fun p q => p.code.toNat < q.code.toNat) {a : ℚ} {Ms : List ℚ}
    (hlen : Ms.length = rest.length + 1) :
    (a = (momentsFrom c d p q rest).1 ∧ Ms = (momentsFrom c d p q rest).2) ↔
      a + c * Ms.getD 0 0 = d ∧ Ms.getLast? = some 0 ∧ SolvesRows (p :: q :: rest) (a :: Ms) := by
  induction rest generalizing c d p q a Ms with
  | nil =>
    obtain ⟨b, rfl⟩ := List.length_eq_one_iff.1 hlen
    constructor
    · rintro ⟨rfl, h⟩
      obtain rfl := List.singleton_inj.1 h
      exact ⟨by simp, rfl, solvesRows_pair p q _⟩
    · rintro ⟨htop, hlast, -⟩
      obtain rfl : b = 0 := by simpa using hlast
      exact ⟨by simpa [momentsFrom] using htop, rfl⟩
  | cons r rest ih =>
    match Ms, hlen with
    | b :: e :: Ms, hlen =>
      have hpq : xOf p < xOf q := xOf_lt_xOf.2 (List.rel_of_pairwise_cons hrun List.mem_cons_self)
      have hqr : xOf q < xOf r := xOf_lt_xOf.2 (List.rel_of_pairwise_cons hrun.of_cons List.mem_cons_self)
      have hnext := ih (a := b) (d := nextD c d p q r) (eliminationCoeff_next hc hpq hqr) hrun.of_cons
        (Nat.succ.inj hlen)
      rw [momentsFrom_cons, solvesRows_cons_cons_cons, List.getLast?_cons_cons]
      constructor
      · rintro ⟨ha, hm⟩
        have hm' := List.cons.inj hm
        obtain ⟨htop, hlast, hrows⟩ := hnext.1 hm'
        have habove : a + c * b = d := by rw [ha, hm'.1]; ring
        exact ⟨habove, hlast, (momentRow_iff_eliminated hc hpq hqr habove).2 htop, hrows⟩
      · rintro ⟨habove, hlast, hrow, hrows⟩
        obtain ⟨hb, hMs⟩ := hnext.2 ⟨(momentRow_iff_eliminated hc hpq hqr habove).1 hrow, hlast, hrows⟩
        exact ⟨hb ▸ eq_sub_of_add_eq habove, congrArg₂ List.cons hb hMs⟩

/-- R127 as one equivalence: a list is the moments exactly if it solves the system with both ends 0. -/
theorem eq_moments_iff {run : Table} (hlen : 2 ≤ run.length)
    (hrun : run.Pairwise fun p q => p.code.toNat < q.code.toNat) (Ms : List ℚ) :
    Ms = moments run ↔
      Ms.length = run.length ∧ Ms.head? = some 0 ∧ Ms.getLast? = some 0 ∧ SolvesRows run Ms := by
  match run, hlen with
  | p :: q :: rest, _ =>
    have hc : EliminationCoeff 0 := ⟨le_rfl, zero_le_one⟩
    constructor
    · intro h
      have hMs : Ms.length = rest.length + 2 := by rw [h]; simp
      match Ms, hMs with
      | a :: b :: Ms, hMs =>
        obtain ⟨htop, hlast, hrows⟩ := (eq_momentsFrom_iff hc hrun (Nat.succ.inj hMs)).1 (List.cons.inj h)
        exact ⟨hMs, by simpa using htop, by simpa using hlast, hrows⟩
    · rintro ⟨hMs, hhead, hlast, hrows⟩
      match Ms, hMs with
      | a :: b :: Ms, hMs =>
        obtain rfl : a = 0 := by simpa using hhead
        obtain ⟨ha, hms⟩ := (eq_momentsFrom_iff (d := 0) hc hrun (Nat.succ.inj hMs)).2
          ⟨by simp, by simpa using hlast, hrows⟩
        exact congrArg₂ List.cons ha hms

/-- Settles O40: the elimination solves the system, and each of its steps can be read backwards. -/
theorem momentsSolveTheSystem : Obligations.MomentsSolveTheSystem := fun _ Ms hlen hrun => eq_moments_iff hlen hrun Ms

/-! #### A bound on the moments (R137) -/

/-- R137's bound on a moment. -/
def momentMax : ℚ := 393210

theorem one_le_xOf_sub {p q : Point} (h : xOf p < xOf q) : 1 ≤ xOf q - xOf p := by
  have hcode : p.code.toNat + 1 ≤ q.code.toNat := xOf_lt_xOf.1 h
  have hx : xOf p + 1 ≤ xOf q := by simp only [xOf]; exact_mod_cast hcode
  linarith

theorem abs_slope_le {p q : Point} (h : xOf p < xOf q) : |(yOf q - yOf p) / (xOf q - xOf p)| ≤ 65535 := by
  obtain ⟨hp0, hp1⟩ := yOf_bounds p
  obtain ⟨hq0, hq1⟩ := yOf_bounds q
  have hstep := one_le_xOf_sub h
  rw [abs_div, abs_of_pos (sub_pos.2 h), div_le_iff₀ (sub_pos.2 h)]
  calc |yOf q - yOf p| ≤ 65535 := abs_le.2 ⟨by linarith, by linarith⟩
    _ ≤ 65535 * (xOf q - xOf p) := by linarith

theorem abs_slopeChange_le {p q r : Point} (hpq : xOf p < xOf q) (hqr : xOf q < xOf r) :
    |slopeChange p q r| ≤ momentMax * ((xOf q - xOf p) + (xOf r - xOf q)) := by
  obtain ⟨hp0, hp1⟩ := abs_le.1 (abs_slope_le hpq)
  obtain ⟨hq0, hq1⟩ := abs_le.1 (abs_slope_le hqr)
  have h0 := one_le_xOf_sub hpq
  have h1 := one_le_xOf_sub hqr
  simp only [slopeChange, momentMax]
  exact abs_le.2 ⟨by linarith, by linarith⟩

theorem abs_sub_mul_le {x h y : ℚ} (hh : 0 ≤ h) : |x - h * y| ≤ |x| + h * |y| :=
  (abs_sub _ _).trans_eq (by rw [abs_mul, abs_of_nonneg hh])

/-- Diagonal dominance at one row: the bound on `d` passes to the next eliminated row. -/
theorem abs_eliminated_le {c d : ℚ} (hc : EliminationCoeff c) (hd : |d| ≤ momentMax * (1 - c)) {p q r : Point}
    (hpq : xOf p < xOf q) (hqr : xOf q < xOf r) :
    |nextD c d p q r| ≤ momentMax * (1 - nextC c p q r) := by
  have hpos := pivot_pos hc hpq hqr
  have hh0 : 0 < xOf q - xOf p := sub_pos.2 hpq
  have hdh : (xOf q - xOf p) * |d| ≤ (xOf q - xOf p) * (momentMax * (1 - c)) := mul_le_mul_of_nonneg_left hd hh0.le
  rw [nextD, nextC, abs_div, abs_of_pos hpos, div_le_iff₀ hpos, mul_assoc, one_sub_mul, div_mul_cancel₀ _ hpos.ne']
  calc |slopeChange p q r - (xOf q - xOf p) * d|
      ≤ |slopeChange p q r| + (xOf q - xOf p) * |d| := abs_sub_mul_le hh0.le
    _ ≤ momentMax * (pivot c p q r - (xOf r - xOf q)) := by
        rw [pivot]; linarith [abs_slopeChange_le hpq hqr]

theorem abs_momentsFrom_le {c d : ℚ} (hc : EliminationCoeff c) (hd : |d| ≤ momentMax * (1 - c)) {p q : Point}
    {rest : Table} (hrun : (p :: q :: rest).Pairwise fun p q => p.code.toNat < q.code.toNat) :
    |(momentsFrom c d p q rest).1| ≤ momentMax ∧ ∀ m ∈ (momentsFrom c d p q rest).2, |m| ≤ momentMax := by
  have hmax : 0 ≤ momentMax := by norm_num [momentMax]
  obtain ⟨hc0, hc1⟩ := hc
  induction rest generalizing c d p q with
  | nil =>
    refine ⟨hd.trans (mul_le_of_le_one_right hmax (by linarith)), fun m hm => ?_⟩
    obtain rfl := List.mem_singleton.1 hm
    simpa using hmax
  | cons r rest ih =>
    have hpq : xOf p < xOf q := xOf_lt_xOf.2 (List.rel_of_pairwise_cons hrun List.mem_cons_self)
    have hqr : xOf q < xOf r := xOf_lt_xOf.2 (List.rel_of_pairwise_cons hrun.of_cons List.mem_cons_self)
    obtain ⟨hc0', hc1'⟩ := eliminationCoeff_next ⟨hc0, hc1⟩ hpq hqr
    obtain ⟨hfirst, hlater⟩ := ih (abs_eliminated_le ⟨hc0, hc1⟩ hd hpq hqr) hrun.of_cons hc0' hc1'
    rw [momentsFrom_cons]
    refine ⟨?_, List.forall_mem_cons.2 ⟨hfirst, hlater⟩⟩
    calc |d - c * _| ≤ |d| + c * |_| := abs_sub_mul_le hc0
      _ ≤ momentMax * (1 - c) + c * momentMax := add_le_add hd (mul_le_mul_of_nonneg_left hfirst hc0)
      _ = momentMax := by ring

/-- R137: every moment of a run is at most 393210 in magnitude. -/
theorem abs_moment_le {run : Table} (hrun : run.Pairwise fun p q => p.code.toNat < q.code.toNat) :
    ∀ m ∈ moments run, |m| ≤ momentMax := by
  match run with
  | [] => simp [moments]
  | [p] => simp [moments, momentMax]
  | p :: q :: rest =>
    exact List.forall_mem_cons.2
      (abs_momentsFrom_le (d := 0) ⟨le_rfl, zero_le_one⟩ (by norm_num [momentMax]) hrun)

end Sys2Proof.Machine
end

section
/-! ### The spline of a run (40_spline_interpolator.md R126, R128) -/

namespace Sys2Proof.Machine

open Polynomial

/-! #### The value of a segment and of a run -/

/-- R128's first formula. -/
theorem segment_eq {a b : Knot} (h : xOf a.pt < xOf b.pt) (x : ℚ) :
    segment a b x =
      a.m * (xOf b.pt - x) ^ 3 / (6 * (xOf b.pt - xOf a.pt)) + b.m * (x - xOf a.pt) ^ 3 / (6 * (xOf b.pt - xOf a.pt))
        + (yOf a.pt / (xOf b.pt - xOf a.pt) - a.m * (xOf b.pt - xOf a.pt) / 6) * (xOf b.pt - x)
        + (yOf b.pt / (xOf b.pt - xOf a.pt) - b.m * (xOf b.pt - xOf a.pt) / 6) * (x - xOf a.pt) := by
  have hne : xOf b.pt - xOf a.pt ≠ 0 := (sub_pos.2 h).ne'
  simp only [segment]
  field_simp
  ring

theorem head_le_getElem {a : Knot} {K : RunSpline}
    (hK : (a :: K).Pairwise fun a b => a.pt.code.toNat < b.pt.code.toNat)
    (i : ℕ) (h : i < (a :: K).length) : a.pt.code.toNat ≤ (a :: K)[i].pt.code.toNat := by
  cases i with
  | zero => exact le_rfl
  | succ i => exact (List.rel_of_pairwise_cons hK (List.getElem_mem (Nat.lt_of_succ_lt_succ h))).le

/-- R128: at a code between two neighbouring knots the run has their segment's value; at a knot the two segments that
meet there agree. -/
theorem runValue_eq_segment {K : RunSpline} (hK : K.Pairwise fun a b => a.pt.code.toNat < b.pt.code.toNat) {c i : ℕ}
    (h : i + 1 < K.length) (hl : K[i].pt.code.toNat ≤ c) (hr : c ≤ K[i + 1].pt.code.toNat) :
    runValue K c = some (segment K[i] K[i + 1] (c : ℚ)) := by
  induction K generalizing i with
  | nil => simp at h
  | cons a K ih =>
    match K with
    | [] => simp at h
    | b :: rest =>
      cases i with
      | zero => exact if_pos ⟨hl, hr⟩
      | succ i =>
        have hlater := ih hK.of_cons (Nat.lt_of_succ_lt_succ h) hl hr
        simp only [runValue]
        split
        · rename_i hc
          obtain rfl : c = b.pt.code.toNat := le_antisymm hc.2 ((head_le_getElem hK.of_cons i _).trans hl)
          rw [segment_right (List.rel_of_pairwise_cons hK List.mem_cons_self),
            ← runValue_knot hK.of_cons List.mem_cons_self]
          exact hlater
        · exact hlater

/-- Settles O41: the formula for one segment, and the run's value on whichever segment is named. -/
theorem segmentIsTheMomentFormula : Obligations.SegmentIsTheMomentFormula :=
  ⟨fun _ _ x h => ⟨segment_eq (xOf_lt_xOf.2 h) x, segment_left h, segment_right h⟩,
    fun _ _ _ h hK hl hr => runValue_eq_segment hK h hl hr⟩

/-! #### The polynomial of a segment and its derivatives -/

/-- R128's first formula as a polynomial. -/
noncomputable def segmentPoly (a b : Knot) : ℚ[X] :=
  C (a.m / (6 * (xOf b.pt - xOf a.pt))) * (C (xOf b.pt) - X) ^ 3
    + C (b.m / (6 * (xOf b.pt - xOf a.pt))) * (X - C (xOf a.pt)) ^ 3
    + C (yOf a.pt / (xOf b.pt - xOf a.pt) - a.m * (xOf b.pt - xOf a.pt) / 6) * (C (xOf b.pt) - X)
    + C (yOf b.pt / (xOf b.pt - xOf a.pt) - b.m * (xOf b.pt - xOf a.pt) / 6) * (X - C (xOf a.pt))

theorem natDegree_segmentPoly_le (a b : Knot) : (segmentPoly a b).natDegree ≤ 3 := by
  unfold segmentPoly
  compute_degree

theorem eval_segmentPoly {a b : Knot} (h : xOf a.pt < xOf b.pt) (x : ℚ) :
    (segmentPoly a b).eval x = segment a b x := by
  rw [segment_eq h]
  simp only [segmentPoly, eval_add, eval_mul, eval_sub, eval_pow, eval_C, eval_X]
  ring

theorem eval_derivative_segmentPoly {a b : Knot} (h : xOf a.pt < xOf b.pt) (x : ℚ) :
    (segmentPoly a b).derivative.eval x =
      (yOf b.pt - yOf a.pt) / (xOf b.pt - xOf a.pt) - (b.m - a.m) * (xOf b.pt - xOf a.pt) / 6
        + (b.m * (x - xOf a.pt) ^ 2 - a.m * (xOf b.pt - x) ^ 2) / (2 * (xOf b.pt - xOf a.pt)) := by
  have hne : xOf b.pt - xOf a.pt ≠ 0 := (sub_pos.2 h).ne'
  simp only [segmentPoly, map_sub, derivative_add, derivative_mul, derivative_C, zero_mul, derivative_pow,
    Nat.cast_ofNat, Nat.add_one_sub_one, derivative_X, zero_sub, mul_neg, mul_one, zero_add, sub_zero,
    sub_self, neg_sub, eval_add, eval_neg, eval_mul, eval_C, eval_pow, eval_sub, eval_X]
  field_simp
  ring

/-- Between two knots the second derivative runs straight from one moment to the other. -/
theorem eval_derivative_derivative_segmentPoly {a b : Knot} (h : xOf a.pt < xOf b.pt) (x : ℚ) :
    (segmentPoly a b).derivative.derivative.eval x =
      (a.m * (xOf b.pt - x) + b.m * (x - xOf a.pt)) / (xOf b.pt - xOf a.pt) := by
  have hne : xOf b.pt - xOf a.pt ≠ 0 := (sub_pos.2 h).ne'
  simp only [segmentPoly, map_sub, derivative_add, derivative_mul, derivative_C, zero_mul, derivative_pow,
    Nat.cast_ofNat, Nat.add_one_sub_one, derivative_X, zero_sub, mul_neg, mul_one, zero_add, sub_zero,
    sub_self, neg_sub, derivative_neg, pow_one, neg_neg, add_zero, eval_add, eval_mul, eval_C, eval_sub, eval_X]
  field_simp
  ring

theorem eval_derivative_derivative_left {a b : Knot} (h : xOf a.pt < xOf b.pt) :
    (segmentPoly a b).derivative.derivative.eval (xOf a.pt) = a.m := by
  rw [eval_derivative_derivative_segmentPoly h, sub_self, mul_zero, add_zero, mul_div_cancel_right₀ _ (sub_pos.2 h).ne']

theorem eval_derivative_derivative_right {a b : Knot} (h : xOf a.pt < xOf b.pt) :
    (segmentPoly a b).derivative.derivative.eval (xOf b.pt) = b.m := by
  rw [eval_derivative_derivative_segmentPoly h, sub_self, mul_zero, zero_add, mul_div_cancel_right₀ _ (sub_pos.2 h).ne']

/-- R127's equation at `b` says that the first derivatives of the two segments that meet at `b` agree there. -/
theorem eval_derivative_eq_of_momentRow {a b c : Knot} (hab : xOf a.pt < xOf b.pt) (hbc : xOf b.pt < xOf c.pt)
    (hrow : MomentRow a.pt b.pt c.pt a.m b.m c.m) :
    (segmentPoly a b).derivative.eval (xOf b.pt) = (segmentPoly b c).derivative.eval (xOf b.pt) := by
  have h0 : xOf b.pt - xOf a.pt ≠ 0 := (sub_pos.2 hab).ne'
  have h1 : xOf c.pt - xOf b.pt ≠ 0 := (sub_pos.2 hbc).ne'
  have hleft : b.m * (xOf b.pt - xOf a.pt) ^ 2 / (2 * (xOf b.pt - xOf a.pt)) =
      b.m * (xOf b.pt - xOf a.pt) / 2 := by
    field_simp
  have hright : -(b.m * (xOf c.pt - xOf b.pt) ^ 2) / (2 * (xOf c.pt - xOf b.pt)) =
      -(b.m * (xOf c.pt - xOf b.pt) / 2) := by
    field_simp
  rw [eval_derivative_segmentPoly hab, eval_derivative_segmentPoly hbc]
  simp only [sub_self, zero_pow two_ne_zero, mul_zero, sub_zero, zero_sub, hleft, hright]
  rw [MomentRow, slopeChange] at hrow
  linear_combination hrow / 6

/-! #### The pieces of a run's spline -/

/-- The polynomial of a run's segment number `i`. -/
noncomputable def piece (K : RunSpline) (i : ℕ) : ℚ[X] := (List.zipWith segmentPoly K K.tail).getD i 0

theorem piece_eq {K : RunSpline} {i : ℕ} (h : i + 1 < K.length) : piece K i = segmentPoly K[i] K[i + 1] := by
  have hi : i < (List.zipWith segmentPoly K K.tail).length := by simp; omega
  rw [piece, List.getD_eq_getElem _ _ hi]
  simp

theorem getElem_splineOf {run : Table} {i : ℕ} (h : i < (splineOf run).length) :
    (splineOf run)[i] = ⟨run[i]'(by simpa using h), (moments run).getD i 0⟩ := by
  rw [List.getD_eq_getElem _ _ (by simpa using h)]
  simp [splineOf]

section Run

variable {run : Table} (hrun : run.Pairwise fun p q => p.code.toNat < q.code.toNat)
include hrun

theorem knot_lt_knot {i : ℕ} (h : i + 1 < (splineOf run).length) :
    (splineOf run)[i].pt.code.toNat < (splineOf run)[i + 1].pt.code.toNat :=
  List.pairwise_iff_getElem.1 (splineOf_pairwise_lt hrun) i (i + 1) _ h (Nat.lt_succ_self i)

/-- R126: a piece is a cubic, is the segment, and passes through both its points. -/
theorem piece_is_segment {i : ℕ} (h : i + 1 < (splineOf run).length) :
    (piece (splineOf run) i).natDegree ≤ 3 ∧
      (∀ x, (piece (splineOf run) i).eval x = segment (splineOf run)[i] (splineOf run)[i + 1] x) ∧
      (piece (splineOf run) i).eval (xOf (splineOf run)[i].pt) = yOf (splineOf run)[i].pt ∧
      (piece (splineOf run) i).eval (xOf (splineOf run)[i + 1].pt) = yOf (splineOf run)[i + 1].pt := by
  have hlt := knot_lt_knot hrun h
  have heval := eval_segmentPoly (xOf_lt_xOf.2 hlt)
  rw [piece_eq h]
  exact ⟨natDegree_segmentPoly_le _ _, heval, (heval _).trans (segment_left hlt), (heval _).trans (segment_right hlt)⟩

/-- R126: two pieces that meet agree there in the first derivative, by R127, and in the second, the moment. -/
theorem pieces_join {i : ℕ} (h : i + 2 < (splineOf run).length) (hrows : SolvesRows run (moments run)) :
    (piece (splineOf run) i).derivative.eval (xOf (splineOf run)[i + 1].pt)
        = (piece (splineOf run) (i + 1)).derivative.eval (xOf (splineOf run)[i + 1].pt) ∧
      (piece (splineOf run) i).derivative.derivative.eval (xOf (splineOf run)[i + 1].pt)
        = (piece (splineOf run) (i + 1)).derivative.derivative.eval (xOf (splineOf run)[i + 1].pt) := by
  have h0 := xOf_lt_xOf.2 (knot_lt_knot hrun (i := i) (by omega))
  have h1 := xOf_lt_xOf.2 (knot_lt_knot hrun h)
  rw [piece_eq (by omega), piece_eq h]
  refine ⟨eval_derivative_eq_of_momentRow h0 h1 ?_, ?_⟩
  · rw [getElem_splineOf, getElem_splineOf, getElem_splineOf]
    exact hrows i (by simpa using h)
  · rw [eval_derivative_derivative_right h0, eval_derivative_derivative_left h1]

/-- R126: the second derivative at the first point is the first moment. -/
theorem derivative_derivative_first (hlen : 2 ≤ run.length) {p : Point} (hp : run.head? = some p) :
    (piece (splineOf run) 0).derivative.derivative.eval (xOf p) = (moments run).getD 0 0 := by
  have h : 0 + 1 < (splineOf run).length := by rw [length_splineOf]; exact hlen
  have hx := xOf_lt_xOf.2 (knot_lt_knot hrun h)
  obtain ⟨h0, rfl⟩ := List.getElem?_eq_some_iff.1 (List.head?_eq_getElem?.symm.trans hp)
  rw [piece_eq h]
  simpa only [getElem_splineOf] using eval_derivative_derivative_left hx

/-- R126: the second derivative at the last point is the last moment. -/
theorem derivative_derivative_last (hlen : 2 ≤ run.length) {p : Point} (hp : run.getLast? = some p) :
    (piece (splineOf run) (run.length - 2)).derivative.derivative.eval (xOf p)
      = (moments run).getD (run.length - 1) 0 := by
  have h : run.length - 2 + 1 < (splineOf run).length := by simp; omega
  have hlast : run.length - 1 = run.length - 2 + 1 := by omega
  have hx := xOf_lt_xOf.2 (knot_lt_knot hrun h)
  obtain ⟨h0, rfl⟩ := List.getElem?_eq_some_iff.1 (List.getLast?_eq_getElem?.symm.trans hp)
  rw [piece_eq h]
  simpa only [getElem_splineOf, hlast] using eval_derivative_derivative_right hx

end Run

/-- Settles O42: the moments are the second derivatives at the knots, and R127's equations join the first ones. -/
theorem splineIsNaturalCubic : Obligations.SplineIsNaturalCubic := by
  intro run hlen hrun
  obtain ⟨hMs, hfirst, hlast, hrows⟩ := (eq_moments_iff hlen hrun _).1 rfl
  refine ⟨splineOf_points run, piece (splineOf run), fun i h => piece_is_segment hrun h,
    fun i h => pieces_join hrun h hrows, fun p hp => ?_, fun p hp => ?_⟩
  · rw [derivative_derivative_first hrun hlen hp, List.getD_eq_getElem?_getD, ← List.head?_eq_getElem?, hfirst,
      Option.getD_some]
  · rw [derivative_derivative_last hrun hlen hp, List.getD_eq_getElem?_getD, ← hMs, ← List.getLast?_eq_getElem?, hlast,
      Option.getD_some]

end Sys2Proof.Machine
end

section
/-! ### The interpolated frequency and `Build` (40_spline_interpolator.md R131 to R137, R140) -/

namespace Sys2Proof.Machine

/-- Settles O43: the run that holds the last point with the code takes its frequency, and later runs lie above. -/
theorem frequencyAtPointIsLastOfItsCode : Obligations.FrequencyAtPointIsLastOfItsCode :=
  fun _ _ _ hT h => frequencyAt_of_lastFreqAt hT h

/-! #### A table of two points -/

theorem segment_flat {p q : Point} (x : ℚ) :
    segment ⟨p, 0⟩ ⟨q, 0⟩ x = (yOf p * (xOf q - x) + yOf q * (x - xOf p)) / (xOf q - xOf p) := by
  simp [segment]

/-- A run of two points has no interior point, so both its moments are 0 (R129). -/
theorem splineOf_pair (p q : Point) : splineOf [p, q] = [⟨p, 0⟩, ⟨q, 0⟩] := by
  simp [splineOf, moments, momentsFrom]

theorem splinesOf_pair {p q : Point} (h : p.code ≠ q.code) : splinesOf [p, q] = [[⟨p, 0⟩, ⟨q, 0⟩]] := by
  simp [splinesOf, runs, h, splineOf_pair]

/-- Settles O44: the one segment of the table is its chord. -/
theorem twoPointTableIsALine : Obligations.TwoPointTableIsALine := by
  intro a b c
  have hrange : (0 : Code).toNat ≤ c.toNat ∧ c.toNat ≤ (2047 : Code).toNat :=
    ⟨Nat.zero_le _, Nat.le_of_lt_succ c.isLt⟩
  rw [frequencyAt, splinesOf_pair (show (0 : Code) ≠ 2047 by decide)]
  simp only [lastRunValue, runValue]
  rw [if_pos hrange, segment_flat]
  simp [xOf, yOf]

/-! #### `Build` -/

theorem fitsEntry_iff (v : ℤ) : fitsEntry v = true ↔ -2 ^ 31 ≤ v ∧ v ≤ 2 ^ 31 - 1 := by
  simp [fitsEntry]

theorem entryValue_of_frequencyAt {T : Table} {c : ℕ} {f : ℚ} (h : frequencyAt T c = some f) :
    entryValue (splinesOf T) c = quant f := by
  rw [entryValue, ← frequencyAt, h, Option.getD_some]

/-- Settles O47: the cases of the range check, over the codes where `F` has its value. -/
theorem buildStoresQuantisedFrequencies : Obligations.BuildStoresQuantisedFrequencies := by
  intro T
  refine ⟨fun c hc => ?_, fun hT => ?_⟩
  · simp only [build, hc]
  · choose F hF using exists_frequencyAt hT
    have hentry : ∀ c : Code, entryValue (splinesOf T) c.toNat = quant (F c) := fun c =>
      entryValue_of_frequencyAt (hF c)
    have hbuild : build T = buildFrom (splinesOf T) := by simp only [build, hT]
    refine ⟨F, hF, ?_⟩
    rcases buildFrom_cases (splinesOf T) with ⟨hfit, hok⟩ | ⟨⟨c, hc, hout⟩, herr⟩
    · refine .inl ⟨⟨_, hbuild.trans hok, fun c => lookupRead_of_frequencyAt (hbuild.trans hok) (hF c)⟩, fun c => ?_⟩
      rw [← fitsEntry_iff, ← hentry]
      exact hfit _ c.isLt
    · refine .inr ⟨hbuild.trans herr, BitVec.ofNat 11 c, ?_⟩
      have hc' : (BitVec.ofNat 11 c).toNat = c := by simpa using hc
      have hnot : ¬(-2 ^ 31 ≤ quant (F (BitVec.ofNat 11 c)) ∧ quant (F (BitVec.ofNat 11 c)) ≤ 2 ^ 31 - 1) := by
        rw [← fitsEntry_iff, ← hentry, hc', hout]
        exact Bool.false_ne_true
      omega

/-! #### R137's bounds -/

/-- A value of a run is a knot's frequency or a value of a segment between two of its knots. -/
theorem runValue_eq_some {K : RunSpline} {c : ℕ} {v : ℚ} (h : runValue K c = some v) :
    (∃ k ∈ K, v = yOf k.pt) ∨
      ∃ a ∈ K, ∃ b ∈ K, a.pt.code.toNat ≤ c ∧ c ≤ b.pt.code.toNat ∧ v = segment a b c := by
  match K with
  | [] => simp [runValue] at h
  | [k] =>
    simp only [runValue] at h
    split at h
    · exact .inl ⟨k, List.mem_cons_self, (Option.some.inj h).symm⟩
    · cases h
  | a :: b :: rest =>
    simp only [runValue] at h
    split at h
    · rename_i hc
      exact .inr ⟨a, List.mem_cons_self, b, by simp, hc.1, hc.2, (Option.some.inj h).symm⟩
    · rcases runValue_eq_some h with ⟨k, hk, hv⟩ | ⟨x, hx, y, hy, hxy⟩
      · exact .inl ⟨k, List.mem_cons_of_mem _ hk, hv⟩
      · exact .inr ⟨x, List.mem_cons_of_mem _ hx, y, List.mem_cons_of_mem _ hy, hxy⟩

theorem exists_run_of_lastRunValue {S : List RunSpline} {c : ℕ} {v : ℚ} (h : lastRunValue S c = some v) :
    ∃ K ∈ S, runValue K c = some v := by
  induction S with
  | nil => simp [lastRunValue] at h
  | cons K S ih =>
    simp only [lastRunValue] at h
    split at h
    · rename_i w hw
      obtain ⟨K', hK', hv⟩ := ih (hw.trans h)
      exact ⟨K', List.mem_cons_of_mem _ hK', hv⟩
    · exact ⟨K, List.mem_cons_self, h⟩

/-- A segment is its chord less its bend. -/
theorem segment_eq_chord_sub (a b : Knot) (x : ℚ) :
    segment a b x = segment ⟨a.pt, 0⟩ ⟨b.pt, 0⟩ x
      - (x - xOf a.pt) * (xOf b.pt - x) * (a.m * (xOf b.pt - xOf a.pt + (xOf b.pt - x))
          + b.m * (xOf b.pt - xOf a.pt + (x - xOf a.pt))) / (6 * (xOf b.pt - xOf a.pt)) := by
  rw [segment_flat, segment]

/-- With t + u = h the two weights add up to 3·h, so the bend is at most M·t·u/2 ≤ M·h²/8 (R137). -/
theorem abs_bend_le {t u M m n : ℚ} (ht : 0 ≤ t) (hu : 0 ≤ u) (hm : |m| ≤ M) (hn : |n| ≤ M) :
    |t * u * (m * (t + u + u) + n * (t + u + t)) / (6 * (t + u))| ≤ M * (t + u) ^ 2 / 8 := by
  have hM : 0 ≤ M := (abs_nonneg m).trans hm
  have hweights : |m * (t + u + u) + n * (t + u + t)| ≤ M * (3 * (t + u)) := by
    obtain ⟨hm0, hm1⟩ := abs_le.1 hm
    obtain ⟨hn0, hn1⟩ := abs_le.1 hn
    exact abs_le.2 ⟨by nlinarith, by nlinarith⟩
  have hbend : |t * u * (m * (t + u + u) + n * (t + u + t)) / (6 * (t + u))| ≤ M * (t * u) / 2 := by
    rw [abs_div, abs_mul, abs_of_nonneg (mul_nonneg ht hu), abs_of_nonneg (by positivity : 0 ≤ 6 * (t + u))]
    refine div_le_of_le_mul₀ (by positivity) (by positivity) ?_
    calc t * u * |m * (t + u + u) + n * (t + u + t)| ≤ t * u * (M * (3 * (t + u))) :=
          mul_le_mul_of_nonneg_left hweights (mul_nonneg ht hu)
      _ = M * (t * u) / 2 * (6 * (t + u)) := by ring
  have hsq : 0 ≤ M * (t - u) ^ 2 := by positivity
  linarith

/-- R137's bound on |F|. -/
def frequencyMax : ℚ := 65535 + 393210 * 2047 ^ 2 / 8

theorem abs_segment_le {a b : Knot} (ha : |a.m| ≤ momentMax) (hb : |b.m| ≤ momentMax) {c : ℕ}
    (hac : a.pt.code.toNat ≤ c) (hcb : c ≤ b.pt.code.toNat) : |segment a b c| ≤ frequencyMax := by
  have ht : xOf a.pt ≤ c := by simpa [xOf] using hac
  have hu : (c : ℚ) ≤ xOf b.pt := by simpa [xOf] using hcb
  have ha0 : 0 ≤ xOf a.pt := Nat.cast_nonneg _
  have hb1 : xOf b.pt ≤ 2047 := by simp only [xOf]; exact_mod_cast Nat.le_of_lt_succ b.pt.code.isLt
  have hchord : |segment ⟨a.pt, 0⟩ ⟨b.pt, 0⟩ c| ≤ 65535 := segment_flat_bounds rfl rfl ht hu
  have hbend := abs_bend_le (sub_nonneg.2 ht) (sub_nonneg.2 hu) ha hb
  have hlength : c - xOf a.pt + (xOf b.pt - c) = xOf b.pt - xOf a.pt := by ring
  rw [hlength] at hbend
  have hsq : (xOf b.pt - xOf a.pt) ^ 2 ≤ 2047 ^ 2 := pow_le_pow_left₀ (by linarith) (by linarith) 2
  rw [segment_eq_chord_sub]
  refine (abs_sub _ _).trans ?_
  simp only [momentMax, frequencyMax] at hbend ⊢
  linarith

theorem abs_frequencyAt_le {T : Table} (hT : validate T = none) {c : ℕ} {f : ℚ} (h : frequencyAt T c = some f) :
    |f| ≤ frequencyMax := by
  obtain ⟨-, hsorted, -⟩ := (validate_eq_none_iff T).1 hT
  obtain ⟨K, hK, hv⟩ := exists_run_of_lastRunValue h
  obtain ⟨r, hr, rfl⟩ := List.mem_map.1 hK
  have hmoment : ∀ k ∈ splineOf r, |k.m| ≤ momentMax := fun k hk => by
    obtain ⟨i, hi, rfl⟩ := List.getElem_of_mem hk
    refine abs_moment_le (run_pairwise_lt hsorted r hr) _ ?_
    simp [splineOf]
  rcases runValue_eq_some hv with ⟨k, -, rfl⟩ | ⟨a, ha, b, hb, hac, hcb, rfl⟩
  · obtain ⟨hy0, hy1⟩ := yOf_bounds k.pt
    rw [abs_of_nonneg hy0]
    exact hy1.trans (by norm_num [frequencyMax])
  · exact abs_segment_le (hmoment a ha) (hmoment b hb) hac hcb

/-- Settles O48: `SCALE` < 9, and 9 times the bound on |F| is below 2^41. -/
theorem frequencyIsBounded : Obligations.FrequencyIsBounded := by
  intro T c f hT hf
  have hF := abs_frequencyAt_le hT hf
  refine ⟨hF, ?_⟩
  have hquant : ((|quant f| : ℤ) : ℚ) < ((2 ^ 41 : ℤ) : ℚ) := by
    simp only [frequencyMax] at hF
    push_cast
    linarith [abs_quant_le f]
  exact_mod_cast hquant

end Sys2Proof.Machine
end

section
/-! ### The chip model selector commands (41_chip_model_selector.md R150 to R156) -/

namespace Sys2Proof.Machine

/-- R154: of all outcomes, CAL_BEGIN's alone clears `stg_ovf`; the overflowing CAL_POINT sets it, the rest keep it. -/
theorem CommandEffect.stgOvf_eq_false_iff {s u : State} {i : Instr} {r : Response} (h : CommandEffect s i u r)
    (ho : s.stgOvf = true) : u.stgOvf = false ↔ i = .calBegin := by
  cases h with
  | calBegin => exact iff_of_true rfl rfl
  | pointDropped c f hfull => exact iff_of_false nofun nofun
  | _ => simp [ho]

/-- R154, R156: the overflow is reported before the staging table is looked at. -/
theorem exec_calCommit_of_stgOvf {s : State} (ho : s.stgOvf = true) :
    exec .calCommit s = .next (s.respond (.error .stagingOverflow)) :=
  exec_of_commandEffect (.commitOverflowed ho)

/-- Settles O24: at 29 points CAL_POINT can only drop its point, and the two lemmas above say the rest. -/
theorem overflowIsSticky : Obligations.OverflowIsSticky := by
  refine ⟨fun c f s t hfull hexec => ?_, fun i s t ho hexec => ?_, fun s ho => exec_calCommit_of_stgOvf ho⟩
  · obtain rfl := Host.Outcome.next.inj (hexec.symm.trans (exec_of_commandEffect (.pointDropped c f hfull)))
    rfl
  · obtain ⟨u, r, he, rfl⟩ := commandEffect_of_exec hexec
    exact he.stgOvf_eq_false_iff ho

/-- Settles O19: for each variant, the two outcomes of SEL_VARIANT, according to whether its table builds. -/
theorem selVariantResult : Obligations.SelVariantResult :=
  ⟨fun _ L hb => exec_of_commandEffect (.variantSelected .A L hb),
    fun _ L hb => exec_of_commandEffect (.variantSelected .B L hb),
    fun _ c hb => exec_of_commandEffect (.variantFails .A c hb),
    fun _ c hb => exec_of_commandEffect (.variantFails .B c hb)⟩

/-- Settles O22: the one outcome of CAL_BEGIN. -/
theorem calBeginResult : Obligations.CalBeginResult :=
  fun _ => exec_of_commandEffect .calBegin

/-- Settles O23: the two outcomes of CAL_POINT, according to whether the staging table has room. -/
theorem calPointResult : Obligations.CalPointResult :=
  fun c f _ => ⟨fun hroom => exec_of_commandEffect (.pointStaged c f hroom),
    fun hfull => exec_of_commandEffect (.pointDropped c f hfull), rfl⟩

/-- Settles O25: the three outcomes of CAL_COMMIT; the staging table is built only while nothing overflowed. -/
theorem calCommitResult : Obligations.CalCommitResult :=
  ⟨fun _ ho => exec_calCommit_of_stgOvf ho,
    fun _ c ho hb => exec_of_commandEffect (.commitFails c ho hb),
    fun _ L ho hb => exec_of_commandEffect (.committed L ho hb)⟩

end Sys2Proof.Machine
end

section
/-! ### The filter register file commands (42_filter_register_file.md R171 to R177) -/

namespace Sys2Proof.Machine

/-! #### What the operand bytes become, as numbers (R97, R98) -/

theorem toNat_resOfByte (b : Byte) : (resOfByte b).toNat = b.toNat / 16 := by
  rw [resOfByte, BitVec.extractLsb'_toNat, Nat.shiftRight_eq_div_pow]
  omega

theorem toNat_filtOfByte (b : Byte) : (filtOfByte b).toNat = b.toNat % 16 := by
  rw [filtOfByte, BitVec.extractLsb'_toNat, Nat.shiftRight_zero]

theorem toNat_modeOfByte (b : Byte) : (modeOfByte b).toNat = b.toNat / 16 % 8 := by
  rw [modeOfByte, BitVec.extractLsb'_toNat, Nat.shiftRight_eq_div_pow]

/-- R97, R98: `vol` takes the same bits of its byte as `filt`. -/
theorem toNat_volOfByte (b : Byte) : (volOfByte b).toNat = b.toNat % 16 := toNat_filtOfByte b

/-- R98: the top bit of a byte is set from 128 on. -/
theorem v3offOfByte_eq (b : Byte) : v3offOfByte b = decide (128 ≤ b.toNat) := by
  rw [v3offOfByte, ← BitVec.msb_eq_getLsbD_last, BitVec.msb_eq_decide]

/-! #### The two half-writes of `fc` (R177) -/

/-- R177: the halves lie in different bits, so the order they are written in makes no difference. -/
theorem fcWithLow_fcWithHigh_comm (fc : Code) (X Y : Byte) :
    fcWithLow (fcWithHigh fc Y) X = fcWithHigh (fcWithLow fc X) Y := by
  refine BitVec.eq_of_getLsbD_eq fun j hj => ?_
  rw [fcWithLow_bit _ _ _ hj, fcWithHigh_bit _ _ _ hj, fcWithHigh_bit _ _ _ hj, fcWithLow_bit _ _ _ hj]
  split <;> rfl

/-- R177: the two half-writes leave nothing of the old code. -/
theorem toNat_fcWithHigh_fcWithLow (fc : Code) (X Y : Byte) :
    (fcWithHigh (fcWithLow fc X) Y).toNat = (Y.toNat <<< 3 ||| (X.toNat &&& 7)) := by
  have h7 (j : ℕ) : (7 : ℕ).testBit j = decide (j < 3) := Nat.testBit_two_pow_sub_one 3 j
  refine Nat.eq_of_testBit_eq fun j => ?_
  simp only [Nat.testBit_or, Nat.testBit_shiftLeft, Nat.testBit_and, h7, BitVec.testBit_toNat]
  by_cases hj : j < 11
  · rw [fcWithHigh_bit _ _ _ hj, fcWithLow_bit _ _ _ hj]
    split
    · simp [*]
    · simp [*, show 3 ≤ j by omega]
  · simp [show ¬ j < 3 by omega, BitVec.getLsbD_of_ge, show 8 ≤ j - 3 by omega, show 11 ≤ j by omega]

/-- R177, R190: a later write of `fc` with its re-derived `w0` hides an earlier one, but for the earlier response. -/
theorem writeFc_rederiveW0_overwrites (s : State) (c c' : Code) (r : Response) :
    (((s.writeFc c).rederiveW0.respond r).writeFc c').rederiveW0 = (s.writeFc c').rederiveW0.respond r := rfl

/-- Settles O17: the second half-write hides the first one's state, and both orders arrive at the same code. -/
theorem halfWritesCommute : Obligations.HalfWritesCommute := by
  intro X Y s
  refine ⟨_, _, _, exec_of_commandEffect (.wrFclo X), exec_of_commandEffect (.wrFchi Y),
    exec_of_commandEffect (.wrFchi Y), ?_, toNat_fcWithHigh_fcWithLow s.regs.fc X Y, fun L hv hL => ?_⟩
  · rw [exec_of_commandEffect (.wrFclo X), writeFc_rederiveW0_overwrites, writeFc_rederiveW0_overwrites]
    simp only [State.respond_regs, State.rederiveW0_regs, State.writeFc_regs, fcWithLow_fcWithHigh_comm]
  · exact deriveW0_of_valid hv hL

/-- Settles O11: bit by bit on `fc`, and the operations of WR_FCLO write no other field. -/
theorem wrFcloResult : Obligations.WrFcloResult := fun b s =>
  ⟨_, exec_of_commandEffect (.wrFclo b),
    fun i hi => (fcWithLow_bit s.regs.fc b i (by omega)).trans (if_pos hi),
    fun i hlow hi => (fcWithLow_bit s.regs.fc b i hi).trans (if_neg (by omega)), rfl, rfl⟩

/-- Settles O12: bit by bit on `fc`, and the operations of WR_FCHI write no other field. -/
theorem wrFchiResult : Obligations.WrFchiResult := fun b s =>
  ⟨_, exec_of_commandEffect (.wrFchi b),
    fun i hi => (fcWithHigh_bit s.regs.fc b (i + 3) (by omega)).trans (if_neg (by omega)),
    fun i hi => (fcWithHigh_bit s.regs.fc b i (by omega)).trans (if_pos hi), rfl, rfl⟩

/-! #### The other register file commands (R173 to R176) -/

/-- Settles O13: the two halves of the byte as numbers, and the operations of WR_RESFILT write no other field. -/
theorem wrResfiltResult : Obligations.WrResfiltResult := fun b _ =>
  ⟨_, exec_of_commandEffect (.wrResfilt b), toNat_resOfByte b, toNat_filtOfByte b, rfl, rfl⟩

/-- Settles O14: the three parts of the byte as numbers, and WR_MODEVOL's write touches no other field. -/
theorem wrModevolResult : Obligations.WrModevolResult := fun b _ =>
  ⟨_, exec_of_commandEffect (.wrModevol b), v3offOfByte_eq b, toNat_modeOfByte b, toNat_volOfByte b, rfl⟩

/-- Settles O15: `w0` and `q1024` are derived at code 0, and the response follows `state_clear` in the trace. -/
theorem resetResult : Obligations.ResetResult := by
  intro s
  have hq : (1448 : QTerm) = qromRead 0 := qromRead_zero.symm
  rw [List.append_cons, hq]
  exact exec_of_commandEffect .reset

/-- Settles O16: the one outcome of SET_ENABLE. -/
theorem setEnableResult : Obligations.SetEnableResult :=
  fun b _ => exec_of_commandEffect (.setEnable b)

end Sys2Proof.Machine
end

section
/-! ### The Q-term ROM (43_coefficient_deriver.md R193, R194) -/

namespace Sys2Proof.Machine

/-- R193: the Q-term's quotient as the spec's exact rational, one integer over another. -/
theorem qTerm_quotient_eq (r : ℕ) :
    (1024 : ℚ) / (707 / 1000 + (r : ℚ) / 15) = ((3072000 : ℕ) : ℚ) / ((2121 + 200 * r : ℕ) : ℚ) := by
  have hden : (707 : ℚ) / 1000 + (r : ℚ) / 15 = ((2121 + 200 * r : ℕ) : ℚ) / 3000 := by
    push_cast
    ring
  rw [hden, div_div_eq_mul_div]
  norm_num

/-- An integer is the nearest to a quotient, no tie, exactly when twice the remainder it leaves is below the divisor. -/
theorem abs_sub_div_lt_half_iff (q n : ℕ) {d : ℕ} (hd : 0 < d) :
    |(q : ℚ) - (n : ℚ) / (d : ℚ)| < 1 / 2 ↔ 2 * |(q : ℤ) * d - n| < d := by
  have hd' : (0 : ℚ) < d := Nat.cast_pos.2 hd
  calc |(q : ℚ) - (n : ℚ) / (d : ℚ)| < 1 / 2
      ↔ |(q : ℚ) * d - n| < 1 / 2 * d := by
        rw [sub_div' hd'.ne', abs_div, abs_of_pos hd', div_lt_iff₀ hd']
    _ ↔ 2 * |(q : ℚ) * d - n| < d := by constructor <;> intro h <;> linarith
    _ ↔ 2 * |(q : ℤ) * d - n| < d := by exact_mod_cast Iff.rfl

/-- R193: the remainder each of the sixteen entries leaves is below half the divisor. -/
theorem two_mul_qromRead_remainder_lt : ∀ r : ResCode,
    2 * |((qromRead r).toNat : ℤ) * (2121 + 200 * r.toNat : ℕ) - (3072000 : ℕ)| < (2121 + 200 * r.toNat : ℕ) := by
  decide

/-- R194: each entry is below the one before it, so the entries decrease strictly. -/
theorem qromRead_strictAnti : StrictAnti fun i : Fin 16 => (qromRead (BitVec.ofFin i)).toNat :=
  Fin.strictAnti_iff_succ_lt.2 (by decide)

/-- Settles O36: the remainders of R193's quotient over integers, and the fifteen drops between neighbouring codes. -/
theorem qromIsRoundedQuotient : Obligations.QromIsRoundedQuotient := by
  refine ⟨fun r => ?_, fun r r' h => qromRead_strictAnti (show r.toFin < r'.toFin from h)⟩
  rw [qTerm_quotient_eq, abs_sub_div_lt_half_iff _ _ (by omega)]
  exact two_mul_qromRead_remainder_lt r

end Sys2Proof.Machine
end

section
/-! ### The block goes on, and errors change nothing (60_exceptions.md R210, R212) -/

namespace Sys2Proof.Machine

/-- Settles O10, by induction on the number of steps: every state has a step effect, and the run goes on from there. -/
theorem blockNeverStops : Obligations.BlockNeverStops := by
  intro s k
  induction k generalizing s with
  | zero => exact ⟨s, rfl⟩
  | succ k ih =>
    obtain ⟨t, ht⟩ := exists_stepEffect s
    obtain ⟨t', hrun⟩ := ih t
    exact ⟨t', (run_succ_of_step (M := core) (step_of_stepEffect ht) k).trans hrun⟩

/-- R210: before its error response a command has done nothing, or it is the overflowing CAL_POINT and has set
`stg_ovf`. -/
theorem CommandEffect.of_error {s u : State} {i : Instr} {c : Cause} (h : CommandEffect s i u (.error c)) :
    u = s ∨ ∃ code freq, i = .calPoint code freq ∧ s.stgCnt = 29 ∧ c = .stagingOverflow ∧ u = s.setOverflow := by
  cases h with
  | variantFails v c hb => exact .inl rfl
  | pointDropped code freq hfull => exact .inr ⟨code, freq, rfl, hfull, rfl, rfl⟩
  | commitOverflowed ho => exact .inl rfl
  | commitFails c ho hb => exact .inl rfl

/-- R200: the response a command gives is the last event of the trace. -/
theorem response_eq_of_respond_trace {u : State} {r r' : Response} {tr : List OutEvent}
    (h : (u.respond r).trace = tr ++ [.response r']) : r = r' := by
  have hlast : [OutEvent.response r] = [.response r'] := List.append_inj_right' h rfl
  simpa using hlast

/-- Settles O27: the last event of the trace says that the word's command answered an error, and such a command left
what it found or set `stg_ovf`. -/
theorem errorsChangeNoState : Obligations.ErrorsChangeNoState := by
  intro s t w rest c hcmds hstep htrace
  cases stepEffect_of_step hstep with
  | idle hnil => exact absurd (hnil.symm.trans hcmds) nofun
  | illegal w' rest' hcmds' hd =>
    obtain ⟨rfl, rfl⟩ := List.cons.inj (hcmds'.symm.trans hcmds)
    exact .inl rfl
  | command w' rest' i u r hcmds' hd he =>
    obtain ⟨rfl, rfl⟩ := List.cons.inj (hcmds'.symm.trans hcmds)
    obtain rfl := response_eq_of_respond_trace htrace
    rcases he.of_error with rfl | ⟨code, freq, rfl, hfull, rfl, rfl⟩
    · exact .inl rfl
    · exact .inr ⟨code, freq, hd, hfull, rfl, rfl⟩

end Sys2Proof.Machine
end

section
/-! ### Power-on (70_reset_and_hazards.md R231) -/

namespace Sys2Proof.Machine

@[simp] theorem State.powerOn_stgCnt (p : Params) (e : Bool) : (State.powerOn p e).stgCnt = 0 := rfl

/-- R231: the trace after power-on is one `state_clear`. -/
@[simp] theorem State.powerOn_stateClears (p : Params) (e : Bool) : (State.powerOn p e).stateClears = 1 := by
  rw [State.stateClears, State.powerOn_trace, List.count_singleton_self]

/-- Settles O32: `q1024` is the derived Q-term by the power-on invariant (R51), and every other field is read off. -/
theorem powerOnValues : Obligations.PowerOnValues := by
  intro p e
  have hq : (State.powerOn p e).q1024 = qromRead 0 := (inv_powerOn p e).q1024_derived
  have hq0 : (qromRead 0).toNat = 1448 := congrArg BitVec.toNat qromRead_zero
  have hreset : ∃ p' e', State.reset = State.powerOn p' e' := ⟨_, _, rfl⟩
  exact ⟨State.powerOn_regs p e, hq, hq0, State.powerOn_varValid p e, State.powerOn_tblValid p e,
    State.powerOn_variant p e, State.powerOn_dc p e, State.powerOn_cal p e, State.powerOn_lookup p e,
    State.powerOn_w0 p e, State.powerOn_stgCnt p e, State.powerOn_stgOvf p e, State.powerOn_enabled p e,
    State.powerOn_stateClears p e, hreset⟩

end Sys2Proof.Machine
end
